-- ==== Sys2Proof/Word.lean ====
section
/-! DEFINITION. The byte and the 16-bit word of the ZL416 and their plainest arithmetic. -/

namespace Sys2Proof

/-- A byte of a frame, a message or a record. -/
abbrev Byte := BitVec 8

/-- A word is 16 bits and travels high byte first (00, Conventions). It also carries sixteen lines or conditions, one bit each. -/
abbrev Word := BitVec 16

/-- The high byte of a word. -/
def hiByte (w : Word) : Byte := w.extractLsb' 8 8

/-- The low byte of a word. -/
def loByte (w : Word) : Byte := w.extractLsb' 0 8

/-- The word of a high and a low byte. -/
def mkWord (high low : Byte) : Word := high ++ low

/-- Bit `i` of a word. -/
def bitOf (w : Word) (i : Nat) : Bool := w.getLsbD i

/-- The word with only bit `i` set. -/
def bitAt (i : Nat) : Word := BitVec.ofNat 16 (2 ^ i)

/-- The word with bit `i` replaced by `b`. -/
def putBit (w : Word) (i : Nat) (b : Bool) : Word :=
  if b then w ||| bitAt i else w &&& ~~~(bitAt i)

/-- A flag code: 1 set, 0 clear (R198). -/
def flagByte (b : Bool) : Byte := if b then 1 else 0

/-- A word as the two bytes that carry it. -/
def wordBytes (w : Word) : List Byte := [hiByte w, loByte w]

end Sys2Proof
end

