-- ==== Sys2Proof/Config.lean ====
section
/-! DEFINITION. The fixed numbers of the ZL416: limits, table sizes and the units of time. The spec leaves no instruction's
result undefined, so there is no free value here. -/

namespace Sys2Proof.Config

/-- The third foreign OPEN in a row in LISTEN is a fault (R28). -/
def foreignLimit : Nat := 3

/-- The collision limit (R18). -/
def collisionLimit : Nat := 3

/-- The driver limit (R18). -/
def driverLimit : Nat := 2

/-- An ordinary record is appended while the queue holds fewer records than this (R188). -/
def ordinaryRoom : Nat := 31

/-- Places of the outstanding query list (R129). -/
def queryPlaces : Nat := 4

/-- Places of the pending-answer list (R140). -/
def answerPlaces : Nat := 4

/-- Places of the mirror table (R58). -/
def mirrorPlaces : Nat := 64

/-- Operand bytes of the longest message (R146). -/
def longestMessage : Nat := 30

/-- The longest length field that gives a reception a declared end (R3). -/
def longestLength : Nat := 29

/-- Characters a reception holds (R3). -/
def longestFrame : Nat := 34

/-- The part identity, word 30 (R124). -/
def partIdentity : Word := 0x0416

/-- Time units in one millisecond. DESIGN CHOICE (log 3): one unit is 10 microseconds, the character time at 1 Mbit/s, of
which every time the rules give is a whole multiple. -/
def unitsPerMs : Nat := 100

/-- Time units in one character time at a rate code: 80, 40, 20 and 10 microseconds for 0 to 3 (R2). -/
def ctUnits (rate : Byte) : Nat :=
  if rate = 0 then 8 else if rate = 1 then 4 else if rate = 2 then 2 else 1

end Sys2Proof.Config
end

