-- ==== Sys2Proof/Syntax.lean ====
section
/-! DEFINITION. The commands of the ZL416, one constructor per row of spec/opcode_table.json. -/

namespace Sys2Proof

/-- A character seen on LRX: its byte, and whether its stop bit was bad (R2). -/
structure RxChar where
  /-- the eight data bits -/
  byte : Byte
  /-- LRX was at "L" where the stop bit should be -/
  badStop : Bool := false
deriving DecidableEq, Repr

/-- The commands: what the host, the line, the pins and the running out of timers do to the station. A host command carries
the operand bytes of its message in order (Fig. 21), whatever their number, so that BAD-LENGTH and BAD-OPERAND are results
like any other. -/
inductive Instr where
  /-- RESET# released (R201); the levels at IN0 to IN15 at the release (R47) -/
  | hardwareReset (inputs : Word)
  /-- a byte written on the data path (R146) -/
  | hostDataWrite (byte : Byte)
  /-- a read access on the data path (R149) -/
  | dataRead
  /-- a write access on the status path; the byte is not used (R151) -/
  | portReset (byte : Byte)
  /-- a whole message whose code names no command (R147) -/
  | badCommand (code : Byte) (operands : List Byte)
  | setStation (operands : List Byte)
  | setEntry (operands : List Byte)
  | clearEntry (operands : List Byte)
  | setCondition (operands : List Byte)
  | clearCondition (operands : List Byte)
  | setOutput (operands : List Byte)
  | clearOutput (operands : List Byte)
  | setPermit (operands : List Byte)
  | commit (operands : List Byte)
  | readConfig (operands : List Byte)
  | getStatus (operands : List Byte)
  | readParameter (operands : List Byte)
  | writeParameter (operands : List Byte)
  | clearCounters (operands : List Byte)
  | takeEvent (operands : List Byte)
  | reconfigure (operands : List Byte)
  | restart (operands : List Byte)
  | hold (operands : List Byte)
  | resume (operands : List Byte)
  | writePoint (operands : List Byte)
  | readPoints (operands : List Byte)
  | readEntry (operands : List Byte)
  | readConditions (operands : List Byte)
  | readOutputs (operands : List Byte)
  | setOutputs (operands : List Byte)
  | unlatch (operands : List Byte)
  | query (operands : List Byte)
  | takeAnswer (operands : List Byte)
  /-- a held RESTART or RECONFIGURE is made (R37) -/
  | heldCommandRelease
  /-- a reception ends; the characters it was made of (R3, R4) -/
  | receptionEnd (chars : List RxChar)
  /-- the foreign count has reached the foreign limit (R28) -/
  | foreignLimit
  /-- no start bit within 4 CT of the slot start point (R7) -/
  | skipPoint
  /-- the age of the entry at a place has reached its age limit (R68) -/
  | entryStale (place : Fin 64)
  /-- the rounds waited of SENT queries have reached Q (R135) -/
  | queryTimeout
  /-- the lone counter has reached the lone limit (R39) -/
  | lone
  /-- 1 CT after the own slot start point (R15) -/
  | transmissionStart
  /-- the last CRC character has read back equal (R18) -/
  | transmissionComplete
  /-- a read-back character differs (R16) -/
  | collision
  /-- the report of the collision limit reaches the station controller (R18, R31) -/
  | collisionLimit
  /-- no start bit read back in the first character time (R17) -/
  | driverError
  /-- the report of the driver limit reaches the station controller (R18, R32) -/
  | driverFault
  /-- the contention timer runs out (R12) -/
  | contentionTimeout
  /-- the cold-start timer runs out (R13, R27) -/
  | coldStart
  /-- the age-step timer runs out (R41) -/
  | ageStepTimer
  /-- the raw level of an input line becomes `level` (R45) -/
  | inputChange (line : Fin 16) (level : Bool)
  /-- the filter timers of the lines of the mask run out at one tick (R46) -/
  | filterExpiry (lines : Word)
  /-- the oldest held notice is taken as a pass (R88) -/
  | conditionPass
  /-- a confirm timer expires (R94) -/
  | confirmExpiry (condition : Fin 16)
  /-- a pulse timer expires (R108) -/
  | pulseExpiry (line : Fin 16)
  /-- a start bit on LRX that begins a reception (R3) -/
  | startBit
  /-- the line activity after a collided own frame ends (R16) -/
  | collidedFrameEnd
deriving DecidableEq, Repr

end Sys2Proof
end

