-- ==== Sys2Proof/WellFormed.lean ====
section
/-! DEFINITION. The code bytes of the host's messages (Fig. 20) and which commands are well formed: which can occur as the
spec describes them. Every meaning is defined on ill-formed commands too. -/

namespace Sys2Proof

/-- The code byte and the operand bytes of a host message (Fig. 20); none for a command that is no message. -/
def messageOf : Instr → Option (Byte × List Byte)
  | .badCommand code ops => some (code, ops)
  | .setStation ops => some (0x10, ops)
  | .setEntry ops => some (0x11, ops)
  | .clearEntry ops => some (0x12, ops)
  | .setCondition ops => some (0x13, ops)
  | .clearCondition ops => some (0x14, ops)
  | .setOutput ops => some (0x15, ops)
  | .clearOutput ops => some (0x16, ops)
  | .setPermit ops => some (0x17, ops)
  | .commit ops => some (0x18, ops)
  | .readConfig ops => some (0x20, ops)
  | .getStatus ops => some (0x21, ops)
  | .readParameter ops => some (0x22, ops)
  | .writeParameter ops => some (0x23, ops)
  | .clearCounters ops => some (0x24, ops)
  | .takeEvent ops => some (0x25, ops)
  | .reconfigure ops => some (0x30, ops)
  | .restart ops => some (0x31, ops)
  | .hold ops => some (0x32, ops)
  | .resume ops => some (0x33, ops)
  | .writePoint ops => some (0x40, ops)
  | .readPoints ops => some (0x41, ops)
  | .readEntry ops => some (0x42, ops)
  | .readConditions ops => some (0x43, ops)
  | .readOutputs ops => some (0x44, ops)
  | .setOutputs ops => some (0x45, ops)
  | .unlatch ops => some (0x46, ops)
  | .query ops => some (0x47, ops)
  | .takeAnswer ops => some (0x48, ops)
  | .hardwareReset _ => none
  | .hostDataWrite _ => none
  | .dataRead => none
  | .portReset _ => none
  | .heldCommandRelease => none
  | .receptionEnd _ => none
  | .foreignLimit => none
  | .skipPoint => none
  | .entryStale _ => none
  | .queryTimeout => none
  | .lone => none
  | .transmissionStart => none
  | .transmissionComplete => none
  | .collision => none
  | .collisionLimit => none
  | .driverError => none
  | .driverFault => none
  | .contentionTimeout => none
  | .coldStart => none
  | .ageStepTimer => none
  | .inputChange _ _ => none
  | .filterExpiry _ => none
  | .conditionPass => none
  | .confirmExpiry _ => none
  | .pulseExpiry _ => none
  | .startBit => none
  | .collidedFrameEnd => none

/-- The code bytes of Fig. 20. -/
def commandCodes : List Byte :=
  [0x10, 0x11, 0x12, 0x13, 0x14, 0x15, 0x16, 0x17, 0x18, 0x20, 0x21, 0x22, 0x23, 0x24, 0x25, 0x30, 0x31, 0x32, 0x33,
   0x40, 0x41, 0x42, 0x43, 0x44, 0x45, 0x46, 0x47, 0x48]

/-- The declared end of a reception: the number of its characters when its first is 7Eh and its length field is 29 or less
(R3 case a). A character with a bad stop bit counts for it by its data bits: neither R2 nor R3 says whether it does
(DESIGN CHOICE, log 33). -/
def declaredEnd : List RxChar → Option Nat
  | first :: _ :: len :: _ =>
    if first.byte = 0x7E && decide (len.byte.toNat ≤ Config.longestLength) then some (5 + len.byte.toNat) else none
  | _ => none

/-- A message fits its length byte (R146). -/
def operandsFit (operands : List Byte) : Bool := decide (operands.length ≤ Config.longestMessage)

/-- A reception has a character, and none after its declared end: such a character begins a new reception (R3). -/
def receptionFits (chars : List RxChar) : Bool :=
  !chars.isEmpty && (match declaredEnd chars with
    | some n => decide (chars.length ≤ n)
    | none => true)

/-- The commands that can occur as the spec describes them. -/
def Instr.wellFormed (i : Instr) : Bool :=
  match i with
  | .badCommand code ops => !commandCodes.contains code && operandsFit ops
  | .receptionEnd chars => receptionFits chars
  | .filterExpiry lines => lines != 0
  | other => match messageOf other with
    | some (_, ops) => operandsFit ops
    | none => true

end Sys2Proof
end

