-- ==== Sys2Proof/Decode.lean ====
section
/-! DEFINITION. The reading of a command message by its code byte (Fig. 20), its inverse, and `decodeTableWord`. -/

namespace Sys2Proof

/-- The command a complete message names, by its code byte (Fig. 20, R147). -/
def decodeMessage (code : Byte) (operands : List Byte) : Instr :=
  if code = 0x10 then .setStation operands
  else if code = 0x11 then .setEntry operands
  else if code = 0x12 then .clearEntry operands
  else if code = 0x13 then .setCondition operands
  else if code = 0x14 then .clearCondition operands
  else if code = 0x15 then .setOutput operands
  else if code = 0x16 then .clearOutput operands
  else if code = 0x17 then .setPermit operands
  else if code = 0x18 then .commit operands
  else if code = 0x20 then .readConfig operands
  else if code = 0x21 then .getStatus operands
  else if code = 0x22 then .readParameter operands
  else if code = 0x23 then .writeParameter operands
  else if code = 0x24 then .clearCounters operands
  else if code = 0x25 then .takeEvent operands
  else if code = 0x30 then .reconfigure operands
  else if code = 0x31 then .restart operands
  else if code = 0x32 then .hold operands
  else if code = 0x33 then .resume operands
  else if code = 0x40 then .writePoint operands
  else if code = 0x41 then .readPoints operands
  else if code = 0x42 then .readEntry operands
  else if code = 0x43 then .readConditions operands
  else if code = 0x44 then .readOutputs operands
  else if code = 0x45 then .setOutputs operands
  else if code = 0x46 then .unlatch operands
  else if code = 0x47 then .query operands
  else if code = 0x48 then .takeAnswer operands
  else .badCommand code operands

/-- The command a word spells by the bits of spec/opcode_table.json. The table gives no row any bits (log 1), so no word
spells a command. -/
def decodeTableWord (_nbits _w : Nat) : Option Instr := none

end Sys2Proof
end

