-- ==== Sys2Proof/Machine/State.lean ====
section
/-! DEFINITION. The state of the ZL416 as plain data, block by block, and the state after hardware reset. -/

namespace Sys2Proof.Machine

/-! ## Line unit (01) -/

/-- What the line unit is doing (R21). -/
inductive LinePhase where
  | off | watch | slots | contention
deriving DecidableEq, Repr

/-- Which frame the station sends. -/
inductive FrameKind where
  | openFrame | slotFrame
deriving DecidableEq, Repr

/-- The receiver: no reception; a reception in progress; an activity on LRX that is not received (R21, R175 step 3). -/
inductive RxState where
  | idle | receiving | ignoring
deriving DecidableEq, Repr

/-- The transmitter: nothing to send; a SLOT frame gathered and waiting out its frame gap (R15); an own frame on the line
(R16); an own frame collided, the rest of the line activity being followed to its end (R16). -/
inductive TxState where
  | idle
  | gap
  | sending (kind : FrameKind)
  | collided (kind : FrameKind)
deriving DecidableEq, Repr

/-- The own SLOT frame as the blocks give it at a moment: its characters, the tag of the query it carries, and whether it carries
an answer (R15, R54). -/
structure SlotPicture where
  chars : List Byte
  query : Option (BitVec 4)
  answer : Bool
deriving DecidableEq, Repr

/-- The state of the line unit. Times are in units of `Config.ctUnits` and `none` is a stopped timer. `pictures` is the model's own:
while a reception occupies a slot, what the own frame would carry as each unit of the last CT was left, newest first, and before a
CT has passed as the start bit came (R7, R15, R54; log 32). -/
structure LineUnit where
  round : Byte
  slot : Option Nat
  phase : LinePhase
  contention : Option Nat
  coldStart : Option Nat
  slotTimer : Option Nat
  gapTimer : Option Nat
  rx : RxState
  rxFrame : List Byte
  pictures : List SlotPicture
  tx : TxState
  txFrame : List Byte
  txQuery : Option (BitVec 4)
  txAnswer : Bool
  collisionRun : Nat
  driverRun : Nat
  foreignCount : Nat
  dupReport : Bool
  driverReport : Bool
deriving DecidableEq, Repr

/-! ## Station controller (02, 09) -/

/-- The station state (R22). -/
inductive StationState where
  | config | listen | synced | fault
deriving DecidableEq, Repr

/-- The fault cause (R32). -/
inductive FaultCause where
  | none | signature | duplicate | driver
deriving DecidableEq, Repr

/-- The cause of a STATE event (R42). -/
inductive StateCause where
  | commit | join | coldStart | syncLoss | foreign | duplicate | driver | restart | reconfigure
deriving DecidableEq, Repr

/-- The set of hold reasons (R38, R39). -/
structure HoldReasons where
  host : Bool
  lone : Bool
deriving DecidableEq, Repr

/-- The drive mode (R40). -/
inductive DriveMode where
  | drive | safe
deriving DecidableEq, Repr

/-- The station settings in the order of SET-STATION (R158), as the bytes and words the host writes. -/
structure Settings where
  address : Byte
  slots : Byte
  rate : Byte
  key : Word
  publish : Byte
  filter : Byte
  invert : Word
  loneLimit : Byte
  timeout : Byte
deriving DecidableEq, Repr

/-- A command held while an own frame is in transmission (R37). -/
inductive HeldCommand where
  | restart | reconfigure
deriving DecidableEq, Repr

/-- The state of the station controller. -/
structure Controller where
  state : StationState
  faultCause : FaultCause
  holds : HoldReasons
  loneCounter : Nat
  heard : Bool
  ageTimer : Option Nat
  driveMode : DriveMode
  held : Option HeldCommand
  edited : Settings
  editedSet : Bool
  committed : Option Settings
  signature : Word
deriving DecidableEq, Repr

/-! ## Point unit (03) -/

/-- The quality of a point (R44). -/
inductive Quality where
  | good | held
deriving DecidableEq, Repr

/-- A point record (R44). -/
structure Point where
  value : Word
  quality : Quality
deriving DecidableEq, Repr

/-- A millisecond timer of one item: idle, or running towards a level or result with the timebase ticks it has left (R1). -/
inductive Timer where
  | idle
  | running (towards : Bool) (ticks : Nat)
deriving DecidableEq, Repr

/-- The state of the point unit; bit `i` of a word belongs to line INi. -/
structure PointUnit where
  points : List Point
  raw : Word
  filtered : Word
  filterTimers : List Timer
  filterTime : Byte
  invert : Word
  publish : Option Nat
  driveMode : DriveMode
deriving DecidableEq, Repr

/-! ## Mirror table (04) -/

/-- The status of a mirror entry (R61). -/
inductive EntryStatus where
  | never | live | held | stale
deriving DecidableEq, Repr

/-- A mirror entry: the definition fields, then the runtime fields (R58). -/
structure Entry where
  source : Byte
  point : Byte
  ageLimit : Byte
  report : Bool
  value : Word
  status : EntryStatus
  age : Nat
  fresh : Bool
  notOffered : Bool
  changed : Bool
  lastRound : Byte
deriving DecidableEq, Repr

/-! ## Condition unit (05) -/

/-- How the counted bits combine (R84). -/
inductive Mode where
  | all | any | noneOf | notAll
deriving DecidableEq, Repr

/-- The raw result taken when some term is unknown (R86). -/
inductive Policy where
  | false | true | keep | value
deriving DecidableEq, Repr

/-- What a term reads (R81). -/
inductive TermRef where
  | point (p : Fin 8)
  | entry (place : Fin 64)
deriving DecidableEq, Repr

/-- A term (R81). -/
structure Term where
  ref : TermRef
  mask : Word
  pattern : Word
deriving DecidableEq, Repr

/-- The definition of a condition (R80). -/
structure Condition where
  mode : Mode
  policy : Policy
  heldUnknown : Bool
  report : Bool
  t1 : Byte
  t0 : Byte
  terms : List Term
deriving DecidableEq, Repr

/-- A notice held for the condition unit (R88): a mirror notification naming places, an announcement of a change of a
point, and the two kinds of change of point 2. -/
inductive Notice where
  | entries (places : List Nat)
  | point (p : Nat)
  | point2Quality
  | point2Bit (k : Nat)
deriving DecidableEq, Repr

/-- The state of the condition unit; bit `k` of a word belongs to condition k. -/
structure CondUnit where
  defs : List (Option Condition)
  raw : Word
  sure : Word
  confirmed : Word
  timers : List Timer
  notices : List Notice
deriving DecidableEq, Repr

/-! ## Output unit (06) -/

/-- The kind of a line rule (R104). -/
inductive OutKind where
  | follow | invert | latch | pulse | toggle
deriving DecidableEq, Repr

/-- The source of a line rule (R104). -/
inductive OutSource where
  | cond (k : Fin 16)
  | host
deriving DecidableEq, Repr

/-- A line rule (R104). -/
structure OutRule where
  source : OutSource
  kind : OutKind
  safe : Bool
  width : Byte
deriving DecidableEq, Repr

/-- The drive mode in force at the output unit (R112). -/
inductive OutMode where
  | drive | safe | config
deriving DecidableEq, Repr

/-- The state of the output unit; bit `i` of a word belongs to line OUTi, of `copy` to condition i. -/
structure OutUnit where
  edited : List (Option OutRule)
  active : List (Option OutRule)
  level : Word
  latched : Word
  pulse : List Timer
  hostLevel : Word
  copy : Word
  parked : Word
  mode : OutMode
  pins : Word
deriving DecidableEq, Repr

/-! ## Query unit and parameter store (07) -/

/-- Where a query stands (R129); a FREE place is not listed. -/
inductive QueryState where
  | queued | sent | done
deriving DecidableEq, Repr

/-- The outcome of a query (R129, R198). -/
inductive Outcome where
  | ok | denied | badIndex | timeout | aborted
deriving DecidableEq, Repr

/-- A non-FREE place of the outstanding query list (R129). `outcome` is none until it is set (R133). -/
structure Query where
  state : QueryState
  target : Byte
  write : Bool
  index : Byte
  value : Word
  tag : BitVec 4
  sendRound : Byte
  waited : Nat
  outcome : Option Outcome
  result : Word
deriving DecidableEq, Repr

/-- An answer item owed to a peer (R139). -/
structure Answer where
  requester : Byte
  tag : BitVec 4
  round : Byte
  outcome : Outcome
  value : Word
deriving DecidableEq, Repr

/-- The state of the query unit: the non-FREE places in issue order, the tag counter, the pending answers oldest first. -/
structure QueryUnit where
  queries : List Query
  tagCounter : BitVec 4
  answers : List Answer
deriving DecidableEq, Repr

/-- The counter words 18 to 27, 29 and 31 (R124). -/
structure Counters where
  validFrames : Word
  invalidFrames : Word
  collisions : Word
  roundsOpened : Word
  mismatches : Word
  slips : Word
  syncLosses : Word
  foreignOpens : Word
  lateAnswers : Word
  droppedQueries : Word
  lostRecords : Word
  roundCuts : Word
deriving DecidableEq, Repr

/-- Every counter at 0 (R125). -/
def Counters.zero : Counters := ⟨0, 0, 0, 0, 0, 0, 0, 0, 0, 0, 0, 0⟩

/-- The parameter store: the host parameters 0 to 15, the write-permit mask and the counters. -/
structure ParamStore where
  host : List Word
  permit : Word
  counters : Counters
deriving DecidableEq, Repr

/-! ## Host port (08) -/

/-- The port phase (R146). -/
inductive PortPhase where
  | ready | filling | executing | replying
deriving DecidableEq, Repr

/-- The state of the host port. `readData` is the byte the last data read drove on HD0 to HD7. -/
structure HostPort where
  phase : PortPhase
  buf : List Byte
  len : Option Nat
  reply : List Byte
  pos : Nat
  perr : Bool
  discard : Bool
  readData : Option Byte
deriving DecidableEq, Repr

/-! ## Event queue (10) and timebase -/

/-- The kind of an event record (R185). -/
inductive EventKind where
  | state | hold | entry | condition | latch | query | param | lost
deriving DecidableEq, Repr

/-- An event record (R185). -/
structure EventRec where
  kind : EventKind
  subject : Byte
  detail : Word
  round : Byte
deriving DecidableEq, Repr

/-- The timebase: time units since its last 1 ms tick (R201). The model's own field (log 3). -/
structure Timebase where
  phase : Nat
deriving DecidableEq, Repr

/-! ## The station -/

/-- The whole state: the queue of waiting commands and the eleven blocks. -/
structure State where
  /-- the commands that wait, first in first out (log 1) -/
  pending : List Instr
  line : LineUnit
  ctl : Controller
  pts : PointUnit
  mir : List (Option Entry)
  cond : CondUnit
  out : OutUnit
  qry : QueryUnit
  par : ParamStore
  port : HostPort
  evq : List EventRec
  time : Timebase
deriving DecidableEq, Repr

/-- A fault of a step. The spec lets nothing stop the station, so no meaning ever answers with one. -/
inductive Fault where
  /-- Raised by no meaning; it keeps the type inhabited. Safe. -/
  | neverRaised
deriving DecidableEq, Repr

/-- A refusal of a step. -/
inductive Refusal where
  /-- Raised by exec's arm for a command that has no meaning in the model. Safe: nothing can be proved of its effect. -/
  | notModelled (mnemonic : String)
deriving DecidableEq, Repr

/-! ## Hardware reset -/

/-- Every station setting 0, as the edited copy stands after hardware reset (R159). -/
def Settings.zero : Settings := ⟨0, 0, 0, 0, 0, 0, 0, 0, 0⟩

/-- The line unit after hardware reset (R21). -/
def LineUnit.reset : LineUnit where
  round := 0
  slot := none
  phase := .off
  contention := none
  coldStart := none
  slotTimer := none
  gapTimer := none
  rx := .idle
  rxFrame := []
  pictures := []
  tx := .idle
  txFrame := []
  txQuery := none
  txAnswer := false
  collisionRun := 0
  driverRun := 0
  foreignCount := 0
  dupReport := false
  driverReport := false

/-- The station controller after hardware reset (R22, R159). -/
def Controller.reset : Controller where
  state := .config
  faultCause := .none
  holds := ⟨false, false⟩
  loneCounter := 0
  heard := false
  ageTimer := none
  driveMode := .safe
  held := none
  edited := Settings.zero
  editedSet := false
  committed := none
  signature := 0

/-- The point unit after hardware reset with the given levels at IN0 to IN15 (R47, R57). -/
def PointUnit.reset (inputs : Word) : PointUnit where
  points := [⟨inputs, .good⟩, ⟨0, .good⟩] ++ List.replicate 6 ⟨0, .held⟩
  raw := inputs
  filtered := inputs
  filterTimers := List.replicate 16 .idle
  filterTime := 0
  invert := 0
  publish := none
  driveMode := .safe

/-- The condition unit after hardware reset (R83). -/
def CondUnit.reset : CondUnit where
  defs := List.replicate 16 none
  raw := 0
  sure := 0
  confirmed := 0
  timers := List.replicate 16 .idle
  notices := []

/-- The output unit after hardware reset (R120). -/
def OutUnit.reset : OutUnit where
  edited := List.replicate 16 none
  active := List.replicate 16 none
  level := 0
  latched := 0
  pulse := List.replicate 16 .idle
  hostLevel := 0
  copy := 0
  parked := 0
  mode := .config
  pins := 0

/-- The host port after hardware reset (R156). -/
def HostPort.reset : HostPort where
  phase := .ready
  buf := []
  len := none
  reply := []
  pos := 0
  perr := false
  discard := false
  readData := none

/-- The station right after hardware reset with the given levels at IN0 to IN15 and no command waiting. -/
def State.resetWith (inputs : Word) : State where
  pending := []
  line := LineUnit.reset
  ctl := Controller.reset
  pts := PointUnit.reset inputs
  mir := List.replicate Config.mirrorPlaces none
  cond := CondUnit.reset
  out := OutUnit.reset
  qry := ⟨[], 0, []⟩
  par := ⟨List.replicate 16 0, 0, Counters.zero⟩
  port := HostPort.reset
  evq := []
  time := ⟨0⟩

/-- The station right after hardware reset. DESIGN CHOICE (log 17), unsafe: every input line is at "L". -/
def State.reset : State := State.resetWith 0

end Sys2Proof.Machine
end

