-- ==== Sys2Proof/Machine/Frames.lean ====
section
/-! DEFINITION. The CRC and the layouts of the line frames: building a frame to send and judging a reception (11.1, R3, R4). -/

namespace Sys2Proof.Machine

/-! ## The CRC (R174, R197) -/

/-- One advance of the CRC register (R174). -/
def crcAdvance (r : Word) : Word := if r.msb then (r <<< 1) ^^^ 0x1021 else r <<< 1

/-- `n` advances of the CRC register. -/
def crcAdvances : Nat → Word → Word
  | 0, r => r
  | n + 1, r => crcAdvances n (crcAdvance r)

/-- A byte taken into the CRC register: combined into its high eight bits, then eight advances (R174). -/
def crcByte (r : Word) (b : Byte) : Word := crcAdvances 8 (r ^^^ mkWord b 0)

/-- The CRC-16 of a run of bytes: the register starts at FFFFh, no final inversion (R174, R197). -/
def crc16 (bytes : List Byte) : Word := bytes.foldl crcByte 0xFFFF

/-- The signature of the settings: the CRC over S, the rate code and the network key (R174). -/
def signatureOf (c : Settings) : Word := crc16 [c.slots, c.rate, hiByte c.key, loByte c.key]

/-! ## Frame contents -/

/-- A query item (R6, Fig. 19). -/
structure QueryItem where
  target : Byte
  write : Bool
  tag : BitVec 4
  index : Byte
  value : Word
deriving DecidableEq, Repr

/-- An answer item (R6, Fig. 19). The outcome is none for the code 3, which names none (R136). -/
structure AnswerItem where
  requester : Byte
  tag : BitVec 4
  round : Byte
  outcome : Option Outcome
  value : Word
deriving DecidableEq, Repr

/-- The contents of an OPEN frame (R5, Fig. 16). -/
structure OpenFrame where
  sender : Byte
  round : Byte
  signature : Word
  slots : Byte
deriving DecidableEq, Repr

/-- The contents of a SLOT frame (R6, Fig. 17). -/
structure SlotFrame where
  sender : Byte
  round : Byte
  holds : HoldReasons
  points : List Point
  query : Option QueryItem
  answer : Option AnswerItem
deriving DecidableEq, Repr

/-- A frame. -/
inductive Frame where
  | opening (f : OpenFrame)
  | slot (f : SlotFrame)
deriving DecidableEq, Repr

/-! ## Building (R196) -/

/-- The characters of a frame from its covered bytes: the delimiter, the bytes from the header on, the CRC (R197). -/
def sealFrame (covered : List Byte) : List Byte := 0x7E :: covered ++ wordBytes (crc16 covered)

/-- The five low bits of an address byte (Fig. 18, Fig. 19). -/
def addressBits (a : Byte) : Byte := a &&& 0x1F

/-- The characters of an OPEN frame (Fig. 16). -/
def buildOpen (f : OpenFrame) : List Byte :=
  sealFrame ([0x40 ||| addressBits f.sender, 4, f.round] ++ wordBytes f.signature ++ [f.slots])

/-- The quality byte: bit i is 1 when point i is HELD (Fig. 17). -/
def qualityBits : Nat → List Point → Byte
  | _, [] => 0
  | i, p :: rest => (if p.quality = .held then BitVec.ofNat 8 (2 ^ i) else 0) ||| qualityBits (i + 1) rest

/-- The bytes of a query item; the write value of a READ is sent as 0000h (Fig. 19, R196). -/
def queryItemBytes (q : QueryItem) : List Byte :=
  [(if q.write then 0x80 else 0) ||| addressBits q.target, q.tag.setWidth 8, q.index &&& 0x1F] ++
    wordBytes (if q.write then q.value else 0)

/-- The outcome bits of an answer item (Fig. 19). -/
def answerOutcomeBits : Option Outcome → Byte
  | some .ok => 0x00
  | some .denied => 0x40
  | some .badIndex => 0x80
  | _ => 0xC0

/-- The bytes of an answer item (Fig. 19). -/
def answerItemBytes (a : AnswerItem) : List Byte :=
  [answerOutcomeBits a.outcome ||| addressBits a.requester, a.tag.setWidth 8, a.round] ++ wordBytes a.value

/-- The bytes of an item if it is present. -/
def itemBytes {α : Type} (bytes : α → List Byte) : Option α → List Byte
  | some a => bytes a
  | none => []

/-- The flags byte (Fig. 18). -/
def flagsByte (f : SlotFrame) : Byte :=
  (if f.holds.host then 0x80 else 0) ||| (if f.holds.lone then 0x40 else 0) |||
    (if f.query.isSome then 0x20 else 0) ||| (if f.answer.isSome then 0x10 else 0) |||
    (BitVec.ofNat 8 (f.points.length - 1) &&& 7)

/-- The length field of a SLOT frame: 3 + 2n and 5 for each item present (R4, R196). -/
def slotLength (n : Nat) (query answer : Bool) : Nat := 3 + 2 * n + (if query then 5 else 0) + (if answer then 5 else 0)

/-- The characters of a SLOT frame (Fig. 17). -/
def buildSlot (f : SlotFrame) : List Byte :=
  sealFrame ([0x80 ||| addressBits f.sender, BitVec.ofNat 8 (slotLength f.points.length f.query.isSome f.answer.isSome),
      f.round, flagsByte f, qualityBits 0 f.points] ++
    (f.points.flatMap fun p => wordBytes p.value) ++ itemBytes queryItemBytes f.query ++ itemBytes answerItemBytes f.answer)

/-! ## Reading (R4, R196) -/

/-- The low four bits of a tag byte (Fig. 19). -/
def tagOf (b : Byte) : BitVec 4 := b.extractLsb' 0 4

/-- Read a query item: the bits shown as zero are not looked at (R196). -/
def readQueryItem : List Byte → Option QueryItem
  | [b0, b1, b2, h, l] => some ⟨addressBits b0, b0.getLsbD 7, tagOf b1, b2 &&& 0x1F, mkWord h l⟩
  | _ => none

/-- The outcome of the two outcome bits; the code 3 names none (R136, R196). -/
def readOutcome (b : Byte) : Option Outcome :=
  if b &&& 0xC0 = 0 then some .ok else if b &&& 0xC0 = 0x40 then some .denied
  else if b &&& 0xC0 = 0x80 then some .badIndex else none

/-- Read an answer item (Fig. 19, R196). -/
def readAnswerItem : List Byte → Option AnswerItem
  | [b0, b1, r, h, l] => some ⟨addressBits b0, tagOf b1, r, readOutcome b0, mkWord h l⟩
  | _ => none

/-- Read `n` points from their value bytes, with the quality bits from bit `i` on (Fig. 17). -/
def readPoints (quality : Byte) : Nat → Nat → List Byte → List Point
  | 0, _, _ => []
  | n + 1, i, h :: l :: rest =>
    ⟨mkWord h l, if quality.getLsbD i then .held else .good⟩ :: readPoints quality n (i + 1) rest
  | _ + 1, _, _ => []

/-- Read an OPEN frame's body, the characters between the length field and the CRC (Fig. 16). -/
def readOpen (header len : Byte) : List Byte → Option Frame
  | [r, sh, sl, s] => if len = 4 then some (.opening ⟨addressBits header, r, mkWord sh sl, s⟩) else none
  | _ => none

/-- Read a SLOT frame's body; its length field must agree with n and the item marks of its flags (R4). -/
def readSlot (header len : Byte) : List Byte → Option Frame
  | r :: flags :: quality :: rest =>
    let n := (flags &&& 7).toNat + 1
    let q := flags.getLsbD 5
    let a := flags.getLsbD 4
    if len.toNat = slotLength n q a then
      let items := rest.drop (2 * n)
      some (.slot ⟨addressBits header, r, ⟨flags.getLsbD 7, flags.getLsbD 6⟩, readPoints quality n 0 rest,
        if q then readQueryItem (items.take 5) else none,
        if a then readAnswerItem (if q then items.drop 5 else items) else none⟩)
    else none
  | _ => none

/-- Read a frame from its header, its length field and its body, by the kind in the header (R4, Fig. 18). -/
def readBody (header len : Byte) (body : List Byte) : Option Frame :=
  if header &&& 0xC0 = 0x40 then readOpen header len body
  else if header &&& 0xC0 = 0x80 then readSlot header len body
  else none

/-- Read the bytes of a reception that has reached its declared end, none if they are no valid frame (R4). -/
def readFrame : List Byte → Option Frame
  | delimiter :: header :: len :: rest =>
    let body := rest.take len.toNat
    let crc := rest.drop len.toNat
    if delimiter = 0x7E ∧ rest.length = len.toNat + 2 ∧ crc = wordBytes (crc16 (header :: len :: body)) then
      readBody header len body
    else none
  | _ => none

/-! ## Receptions (R3, R4) -/

/-- The characters that belong to a reception: none after its declared end (R3). -/
def receptionChars (chars : List RxChar) : List RxChar :=
  match declaredEnd chars with
  | some n => chars.take n
  | none => chars

/-- Whether a reception reached its declared end; otherwise its end is recognised after a CT of silence (R3). -/
def reachedEnd (chars : List RxChar) : Bool :=
  match declaredEnd chars with
  | some n => decide (n ≤ chars.length)
  | none => false

/-- Judge a reception (R4): the frame it carries if it is valid. A bad stop bit or a missed declared end makes it invalid. -/
def judge (chars : List RxChar) : Option Frame :=
  let own := receptionChars chars
  if reachedEnd chars = true ∧ (own.any fun c => c.badStop) = false then readFrame (own.map fun c => c.byte) else none

/-- The characters a reception stores: at most 34 (R3). -/
def storedChars (chars : List RxChar) : List Byte :=
  (receptionChars chars).map (fun c => c.byte) |>.take Config.longestFrame

end Sys2Proof.Machine
end

