-- ==== Sys2Proof/Machine/Operands.lean ====
section
/-! DEFINITION. The codes of operands, replies and records (R198, R200) and the operand forms of the configuration commands. -/

namespace Sys2Proof.Machine

/-! ## Codes in replies and records -/

/-- The reply status codes (R153, R198). -/
inductive Status where
  | ok | badCommand | badLength | wrongState | notSynced | badOperand | full | notFound | notReady | stillActive
  | invalidConfig
deriving DecidableEq, Repr

/-- The code of a reply status (R198). -/
def statusCode : Status → Byte
  | .ok => 0x00
  | .badCommand => 0x01
  | .badLength => 0x02
  | .wrongState => 0x03
  | .notSynced => 0x04
  | .badOperand => 0x05
  | .full => 0x06
  | .notFound => 0x07
  | .notReady => 0x08
  | .stillActive => 0x09
  | .invalidConfig => 0x0A

/-- The check codes of COMMIT (R169, R198). -/
inductive Check where
  | noStation | address | entrySource | entryDuplicate | termEntry | termOwnOutput | termOrder | empty | outputSource
deriving DecidableEq, Repr

/-- The code of a COMMIT check (R198). -/
def checkCode : Check → Byte
  | .noStation => 0x01
  | .address => 0x02
  | .entrySource => 0x03
  | .entryDuplicate => 0x04
  | .termEntry => 0x05
  | .termOwnOutput => 0x06
  | .termOrder => 0x07
  | .empty => 0x08
  | .outputSource => 0x09

/-- The code of a station state (R198). -/
def stateCode : StationState → Byte
  | .config => 0
  | .listen => 1
  | .synced => 2
  | .fault => 3

/-- The code of a fault cause (R198). -/
def faultCode : FaultCause → Byte
  | .none => 0
  | .signature => 1
  | .duplicate => 2
  | .driver => 3

/-- The code of the cause of a STATE event (R200). -/
def causeCode : StateCause → Byte
  | .commit => 1
  | .join => 2
  | .coldStart => 3
  | .syncLoss => 4
  | .foreign => 5
  | .duplicate => 6
  | .driver => 7
  | .restart => 8
  | .reconfigure => 9

/-- The code of an event kind (Fig. 24). -/
def kindCode : EventKind → Byte
  | .state => 1
  | .hold => 2
  | .entry => 3
  | .condition => 4
  | .latch => 5
  | .query => 6
  | .param => 7
  | .lost => 8

/-- The code of an entry status (R198). -/
def entryCode : EntryStatus → Byte
  | .never => 0
  | .live => 1
  | .held => 2
  | .stale => 3

/-- The code of a query outcome (R198). -/
def outcomeCode : Outcome → Byte
  | .ok => 0
  | .denied => 1
  | .badIndex => 2
  | .timeout => 3
  | .aborted => 4

/-- The code of a quality (R198). -/
def qualityCode : Quality → Byte
  | .good => 0
  | .held => 1

/-- The five bytes of an event record (Fig. 24). -/
def recordBytes (r : EventRec) : List Byte := [kindCode r.kind, r.subject, hiByte r.detail, loByte r.detail, r.round]

/-! ## Codes in operands -/

/-- A flag operand: 0 clear, 1 set, nothing else (R198). -/
def readFlag (b : Byte) : Option Bool := if b = 0 then some false else if b = 1 then some true else none

/-- A quality operand: 0 GOOD, 1 HELD (R52). -/
def readQuality (b : Byte) : Option Quality := if b = 0 then some .good else if b = 1 then some .held else none

/-- A mode operand (R162). -/
def readMode (b : Byte) : Option Mode :=
  if b = 0 then some .all else if b = 1 then some .any else if b = 2 then some .noneOf else if b = 3 then some .notAll
  else none

/-- The code of a mode (R162). -/
def modeCode : Mode → Byte
  | .all => 0
  | .any => 1
  | .noneOf => 2
  | .notAll => 3

/-- An unknown policy operand (R162). -/
def readPolicy (b : Byte) : Option Policy :=
  if b = 0 then some .false else if b = 1 then some .true else if b = 2 then some .keep else if b = 3 then some .value
  else none

/-- The code of an unknown policy (R162). -/
def policyCode : Policy → Byte
  | .false => 0
  | .true => 1
  | .keep => 2
  | .value => 3

/-- A term reference: 00h to 07h own point 0 to 7, 40h to 7Fh mirror place 0 to 63 (R198). -/
def readRef (b : Byte) : Option TermRef :=
  if h : b.toNat < 8 then some (.point ⟨b.toNat, h⟩)
  else if h : 64 ≤ b.toNat ∧ b.toNat - 64 < 64 then some (.entry ⟨b.toNat - 64, h.2⟩)
  else none

/-- The code of a term reference (R198). -/
def refCode : TermRef → Byte
  | .point p => BitVec.ofNat 8 p.val
  | .entry i => BitVec.ofNat 8 (64 + i.val)

/-- An output source: 00h to 0Fh a condition, 80h HOST (R198). -/
def readSource (b : Byte) : Option OutSource :=
  if h : b.toNat < 16 then some (.cond ⟨b.toNat, h⟩) else if b = 0x80 then some .host else none

/-- The code of an output source (R198). -/
def sourceCode : OutSource → Byte
  | .cond k => BitVec.ofNat 8 k.val
  | .host => 0x80

/-- A kind operand (R165). -/
def readKind (b : Byte) : Option OutKind :=
  if b = 0 then some .follow else if b = 1 then some .invert else if b = 2 then some .latch
  else if b = 3 then some .pulse else if b = 4 then some .toggle else none

/-- The code of a line rule's kind (R165). -/
def kindOperand : OutKind → Byte
  | .follow => 0
  | .invert => 1
  | .latch => 2
  | .pulse => 3
  | .toggle => 4

/-! ## Whole operand forms -/

/-- The station settings pass the range checks of SET-STATION (R158). -/
def settingsInRange (c : Settings) : Bool :=
  decide (c.address.toNat ≤ 31) && decide (2 ≤ c.slots.toNat) && decide (c.slots.toNat ≤ 32) &&
  decide (c.rate.toNat ≤ 3) && decide (3 ≤ c.publish.toNat) && decide (c.publish.toNat ≤ 8) &&
  decide (c.filter.toNat ≤ 15) && decide (c.loneLimit.toNat ≤ 15) &&
  decide (2 ≤ c.timeout.toNat) && decide (c.timeout.toNat ≤ 15)

/-- The station settings as the bytes of SET-STATION and READ-CONFIG (Fig. 21). -/
def settingsBytes (c : Settings) : List Byte :=
  [c.address, c.slots, c.rate, hiByte c.key, loByte c.key, c.publish, c.filter, hiByte c.invert, loByte c.invert,
   c.loneLimit, c.timeout]

/-- A term part of SET-CONDITION: reference, mask, pattern (Fig. 21); none when the reference is out of range. -/
def readTerm (ref maskHi maskLo patHi patLo : Byte) : Option Term :=
  match readRef ref with
  | some r => some ⟨r, mkWord maskHi maskLo, mkWord patHi patLo⟩
  | none => none

/-- The term parts of SET-CONDITION, five bytes each (R178); none when a reference is out of range (R162). -/
def readTerms : List Byte → Option (List Term)
  | [] => some []
  | r :: mh :: ml :: ph :: pl :: rest =>
    match readTerm r mh ml ph pl, readTerms rest with
    | some t, some ts => some (t :: ts)
    | _, _ => none
  | _ => none

/-- A term as the five bytes that carry it (Fig. 21). -/
def termBytes (t : Term) : List Byte := refCode t.ref :: wordBytes t.mask ++ wordBytes t.pattern

/-- The fixed part and the terms of a condition definition, the place left out (R162). -/
def readCondition (mode policy heldUnknown report t1 t0 : Byte) (terms : List Byte) : Option Condition :=
  match readMode mode, readPolicy policy, readFlag heldUnknown, readFlag report, readTerms terms with
  | some m, some p, some h, some r, some ts => some ⟨m, p, h, r, t1, t0, ts⟩
  | _, _, _, _, _ => none

/-- A line rule from the operands of SET-OUTPUT, the line left out (R165). -/
def readRule (source kind safe width : Byte) : Option OutRule :=
  match readSource source, readKind kind, readFlag safe with
  | some s, some k, some l => if k = .pulse ∧ width = 0 then none else some ⟨s, k, l, width⟩
  | _, _, _ => none

end Sys2Proof.Machine
end

