-- ==== Sys2Proof/Machine/Flags.lean ====
section
/-! DEFINITION. What is computed from the state at each read of it: the committed settings and the times they give, the status
byte, the hold-reasons byte, the station words, the drive mode, the output levels and the pins HATN, LDE and LTX. -/

namespace Sys2Proof.Machine

/-! ## The committed settings and line times -/

/-- The settings in force: the committed copy, every field 0 while it is unset (R22, R159; log 21). -/
def State.settings (s : State) : Settings := s.ctl.committed.getD Settings.zero

/-- The own address. -/
def State.address (s : State) : Nat := s.settings.address.toNat

/-- The slot count S in force. -/
def State.slots (s : State) : Nat := s.settings.slots.toNat

/-- One character time in time units, at the committed line rate (R2). -/
def State.ct (s : State) : Nat := Config.ctUnits s.settings.rate

/-- The wait of the opening contention: 6 CT + 2 CT × address (R10). -/
def State.contentionWait (s : State) : Nat := (6 + 2 * s.address) * s.ct

/-- The cold-start wait: 4 CT × S + 6 CT + 2 CT × address (R13). -/
def State.coldStartWait (s : State) : Nat := (4 * s.slots + 6 + 2 * s.address) * s.ct

/-- The period of the age-step timer: 40 CT × S (R41). -/
def State.agePeriod (s : State) : Nat := 40 * s.slots * s.ct

/-! ## Hold reasons and drive mode -/

/-- No hold reason. -/
def HoldReasons.empty : HoldReasons := ⟨false, false⟩

/-- The hold-reasons byte: HOST bit 0, LONE bit 1 (Fig. 23). -/
def holdByte (h : HoldReasons) : Byte := (if h.host then 1 else 0) ||| (if h.lone then 2 else 0)

/-- The drive mode the station state and the hold reasons give (R40). -/
def deriveMode (st : StationState) (h : HoldReasons) : DriveMode :=
  if (st = .listen ∨ st = .synced) ∧ h = HoldReasons.empty then .drive else .safe

/-- The drive mode as the output unit takes it. -/
def outModeOf : DriveMode → OutMode
  | .drive => .drive
  | .safe => .safe

/-- The quality of point 2 in a drive mode (R50). -/
def qualityOf : DriveMode → Quality
  | .drive => .good
  | .safe => .held

/-! ## Output levels -/

/-- The bits `f 0` to `f 15` as a word. -/
def wordOf (f : Nat → Bool) : Word :=
  (List.range 16).foldl (fun w i => putBit w i (f i)) 0

/-- The rule of a line in a rule table, none for an undefined line. -/
def ruleAt (rules : List (Option OutRule)) (i : Nat) : Option OutRule := (rules[i]?).getD none

/-- A line that behaves as a HOST line: its source is HOST, or it is undefined (R103). -/
def isHostLine (rules : List (Option OutRule)) (i : Nat) : Bool :=
  match ruleAt rules i with
  | some r => decide (r.source = .host)
  | none => true

/-- A line with an active rule of a condition source and the given kind. -/
def isKindLine (rules : List (Option OutRule)) (k : OutKind) (i : Nat) : Bool :=
  match ruleAt rules i with
  | some r => decide (r.source ≠ .host) && decide (r.kind = k)
  | none => false

/-- The HOST and undefined lines. -/
def hostLines (rules : List (Option OutRule)) : Word := wordOf (isHostLine rules)

/-- The safe levels of a rule table, 0 for an undefined line (R112). -/
def safeLevels (rules : List (Option OutRule)) : Word :=
  wordOf fun i => match ruleAt rules i with
    | some r => r.safe
    | none => false

/-- The rule levels: the host level of a HOST or undefined line (R111), the kept level of every other line. -/
def ruleLevels (o : OutUnit) : Word :=
  (o.hostLevel &&& hostLines o.active) ||| (o.level &&& ~~~(hostLines o.active))

/-- The levels the pins show in the drive mode in force (R112). -/
def shownPins (o : OutUnit) : Word :=
  match o.mode with
  | .drive => ruleLevels o
  | .safe => safeLevels o.active
  | .config => o.parked

/-- The levels rule state starts with: INVERT 1, every other kind 0 (R106, R121). -/
def startLevels (rules : List (Option OutRule)) : Word := wordOf (isKindLine rules .invert)

/-! ## Pins and the status byte -/

/-- HATN: "H" while the event queue holds a record (R155). -/
def hatn (s : State) : Bool := !s.evq.isEmpty

/-- An own frame is in transmission. -/
def txSending (s : State) : Bool :=
  match s.line.tx with
  | .sending _ => true
  | _ => false

/-- LDE: "H" while the station drives the line (R16, R201). -/
def lde (s : State) : Bool := txSending s

/-- The levels of one character on LTX, a bit time each: the start bit "L", 8 data bits with the least significant first, the
stop bit "H" (R2). DEDUCED (log 31): a data bit of 1 is "H". -/
def charLevels (b : Byte) : List Bool := false :: (List.range 8).map (fun i => b.getLsbD i) ++ [true]

/-- LTX in bit time `n` of the own frame in transmission, counted from its first start bit; "H" at rest and after the frame's
last stop bit (R2, R16, R21, R201). -/
def ltx (s : State) (n : Nat) : Bool :=
  if txSending s then (s.line.txFrame.flatMap charLevels).getD n true else true

/-- A place of the outstanding query list is DONE (R129). -/
def queryDone (s : State) : Bool := s.qry.queries.any fun q => decide (q.state = .done)

/-- The port accepts command bytes: phase READY or FILLING, PERR clear (R145). -/
def cmdReady (s : State) : Bool := decide (s.port.phase = .ready ∨ s.port.phase = .filling) && !s.port.perr

/-- A flag at a bit of a byte. -/
def flagAt (b : Bool) (i : Nat) : Byte := if b then BitVec.ofNat 8 (2 ^ i) else 0

/-- The byte a status read returns (R145, R199, Fig. 23). -/
def statusByte (s : State) : Byte :=
  flagAt (cmdReady s) 0 ||| flagAt (decide (s.port.phase = .replying)) 1 ||| flagAt (hatn s) 2 |||
  (stateCode s.ctl.state <<< 3) ||| flagAt (s.ctl.holds.host || s.ctl.holds.lone) 5 ||| flagAt s.port.perr 6 |||
  flagAt (queryDone s) 7

/-! ## Parameter words -/

/-- Word 16: the committed address, hold reasons, fault cause and station state (R124, Fig. 23). -/
def stationWord (s : State) : Word :=
  mkWord s.settings.address
    (flagAt s.ctl.holds.lone 5 ||| flagAt s.ctl.holds.host 4 ||| (faultCode s.ctl.faultCause <<< 2) ||| stateCode s.ctl.state)

/-- The parameter word of an index, 0 to 31, as it stands (R124). -/
def paramWord (s : State) (i : Nat) : Word :=
  if i < 16 then s.par.host.getD i 0
  else match i with
    | 16 => stationWord s
    | 17 => mkWord s.line.round s.settings.slots
    | 18 => s.par.counters.validFrames
    | 19 => s.par.counters.invalidFrames
    | 20 => s.par.counters.collisions
    | 21 => s.par.counters.roundsOpened
    | 22 => s.par.counters.mismatches
    | 23 => s.par.counters.slips
    | 24 => s.par.counters.syncLosses
    | 25 => s.par.counters.foreignOpens
    | 26 => s.par.counters.lateAnswers
    | 27 => s.par.counters.droppedQueries
    | 28 => s.ctl.signature
    | 29 => s.par.counters.lostRecords
    | 30 => Config.partIdentity
    | 31 => s.par.counters.roundCuts
    | _ => 0

end Sys2Proof.Machine
end

