-- ==== Sys2Proof/Machine/Ops.lean ====
section
/-! DEFINITION. The shared operations: counters, the event queue, notices, points, pins, the drive mode and timers. -/

namespace Sys2Proof.Machine

/-! ## One block replaced -/

/-- The state with its queue of waiting commands replaced. -/
def setPending (x : List Instr) (s : State) : State := { s with pending := x }

/-- The state with its line unit replaced. -/
def setLine (x : LineUnit) (s : State) : State := { s with line := x }

/-- The state with its station controller replaced. -/
def setCtl (x : Controller) (s : State) : State := { s with ctl := x }

/-- The state with its point unit replaced. -/
def setPts (x : PointUnit) (s : State) : State := { s with pts := x }

/-- The state with its mirror table replaced. -/
def setMir (x : List (Option Entry)) (s : State) : State := { s with mir := x }

/-- The state with its condition unit replaced. -/
def setCond (x : CondUnit) (s : State) : State := { s with cond := x }

/-- The state with its output unit replaced. -/
def setOut (x : OutUnit) (s : State) : State := { s with out := x }

/-- The state with its query unit replaced. -/
def setQry (x : QueryUnit) (s : State) : State := { s with qry := x }

/-- The state with its parameter store replaced. -/
def setPar (x : ParamStore) (s : State) : State := { s with par := x }

/-- The state with its host port replaced. -/
def setPort (x : HostPort) (s : State) : State := { s with port := x }

/-- The state with its event queue replaced. -/
def setEvq (x : List EventRec) (s : State) : State := { s with evq := x }

/-- The state with its timebase replaced. -/
def setTime (x : Timebase) (s : State) : State := { s with time := x }

/-! ## Counters -/

/-- A counter's increment: FFFFh stays (R125). -/
def satInc (w : Word) : Word := if w = 0xFFFF then w else w + 1

/-- Replace the counters. -/
def setCounters (c : Counters) (s : State) : State := setPar { s.par with counters := c } s

/-! ## The event queue (R188, R189) -/

/-- A new LOST record for the first drop of a run (R189, R200). -/
def lostRecord (r : EventRec) : EventRec := ⟨.lost, 1, mkWord (kindCode r.kind) (kindCode r.kind), r.round⟩

/-- The newest LOST record after a further drop: its count advances, saturating at 255, and its last kind changes (R189). -/
def lostAgain (n r : EventRec) : EventRec :=
  { n with subject := if n.subject = 255 then n.subject else n.subject + 1,
           detail := mkWord (hiByte n.detail) (kindCode r.kind) }

/-- A posting to the queue: appended while the queue holds fewer than 31 records, else dropped into a LOST record (R188, R189). -/
def enqueue (q : List EventRec) (r : EventRec) : List EventRec :=
  if q.length < Config.ordinaryRoom then q ++ [r]
  else match q.getLast? with
    | some n => if n.kind = .lost then q.dropLast ++ [lostAgain n r] else q ++ [lostRecord r]
    | none => q ++ [lostRecord r]

/-- Post an event record with the line unit's round number; a drop increments word 29 (R185, R189). -/
def post (kind : EventKind) (subject : Byte) (detail : Word) (s : State) : State :=
  let s1 := setEvq (enqueue s.evq ⟨kind, subject, detail, s.line.round⟩) s
  if s.evq.length < Config.ordinaryRoom then s1
  else setCounters { s.par.counters with lostRecords := satInc s.par.counters.lostRecords } s1

/-! ## Notices and points (R56, R88) -/

/-- Hand the condition unit a notice. In CONFIG none is given (R56, R71). -/
def notify (n : Notice) (s : State) : State :=
  if s.ctl.state = .config then s else setCond { s.cond with notices := s.cond.notices ++ [n] } s

/-- The record of a local point. -/
def pointAt (s : State) (i : Nat) : Point := (s.pts.points[i]?).getD ⟨0, .good⟩

/-- Write a point record without announcing it. -/
def storePoint (i : Nat) (p : Point) (s : State) : State :=
  setPts { s.pts with points := s.pts.points.set i p } s

/-- Write a point record and announce it if it changes (R44, R56). -/
def changePoint (i : Nat) (p : Point) (n : Notice) (s : State) : State :=
  if pointAt s i = p then s else notify n (storePoint i p s)

/-- Form point 0 again from the filtered levels and the invert mask (R46). -/
def formPoint0 (s : State) : State := changePoint 0 ⟨s.pts.filtered ^^^ s.pts.invert, .good⟩ (.point 0) s

/-! ## Pins and the drive mode (R105, R112, R113) -/

/-- Set every pin to the level the drive mode in force gives; the pins that differ change together and point 1 once (R48). -/
def setPins (s : State) : State :=
  let p := shownPins s.out
  if p = s.out.pins then s else changePoint 1 ⟨p, .good⟩ (.point 1) (setOut { s.out with pins := p } s)

/-- Give a new drive mode to the output unit and the point unit (R40, R50, R113). DESIGN CHOICE (log 29), unsafe: the notice of
point 1 comes before the notice of point 2's quality, an order that R40 leaves open. -/
def giveDriveMode (m : DriveMode) (s : State) : State :=
  let s1 := setPins (setCtl { s.ctl with driveMode := m } (setOut { s.out with mode := outModeOf m } s))
  changePoint 2 ⟨(pointAt s1 2).value, qualityOf m⟩ .point2Quality
    (setPts { s1.pts with driveMode := m } s1)

/-- Derive the drive mode again; a result that differs is given at once (R40). -/
def updateDriveMode (s : State) : State :=
  let m := deriveMode s.ctl.state s.ctl.holds
  if m = s.ctl.driveMode then s else giveDriveMode m s

/-- Change the set of hold reasons: a change gives the new drive mode and posts a HOLD event (R40, R43). -/
def setHolds (h : HoldReasons) (s : State) : State :=
  if h = s.ctl.holds then s
  else post .hold (holdByte h) (mkWord 0 (holdByte s.ctl.holds)) (updateDriveMode (setCtl { s.ctl with holds := h } s))

/-- Post the STATE event of the state as it now stands (R42, R200). -/
def postState (cause : StateCause) (s : State) : State :=
  post .state (stateCode s.ctl.state) (mkWord (causeCode cause) (faultCode s.ctl.faultCause)) s

/-! ## Millisecond timers (R1) -/

/-- Start a timer of `n` ms: it runs out at the `n`th timebase tick when a tick has just passed, else at the one after,
so that it expires not less than `n` and less than `n + 1` ms after its start (R1; log 3). -/
def startTimer (towards : Bool) (n : Nat) (s : State) : Timer :=
  .running towards (if s.time.phase = 0 then n else n + 1)

/-- A timer of a list, idle where the list has none. -/
def timerAt (ts : List Timer) (i : Nat) : Timer := (ts[i]?).getD .idle

/-- Whether a timer runs. -/
def isRunning : Timer → Bool
  | .idle => false
  | .running _ _ => true

/-- The lines or conditions whose timer runs. -/
def runningMask (ts : List Timer) : Word := wordOf fun i => isRunning (timerAt ts i)

end Sys2Proof.Machine
end

