-- ==== Sys2Proof/Machine/Mirror.lean ====
section
/-! DEFINITION. The mirror table: frame application, age steps, RESTART and RECONFIGURE of the entries, ENTRY events (04). -/

namespace Sys2Proof.Machine

/-- The entry of a place, none for an unused place (R58). -/
def entryAt (m : List (Option Entry)) (i : Nat) : Option Entry := (m[i]?).getD none

/-- A definition with its runtime fields at their starting values (R58). -/
def freshEntry (source point ageLimit : Byte) (report : Bool) : Entry :=
  { source, point, ageLimit, report, value := 0, status := .never, age := 0, fresh := false, notOffered := false,
    changed := false, lastRound := 0 }

/-- An entry with its runtime fields at their starting values (R75). -/
def restartedEntry (e : Entry) : Entry := freshEntry e.source e.point e.ageLimit e.report

/-- A point of a frame that offers the entry's point refreshes it (R63, R65). -/
def refreshEntry (e : Entry) (p : Point) (round : Byte) : Entry :=
  { e with
    value := p.value
    status := if p.quality = .good then .live else .held
    age := 0
    fresh := true
    notOffered := false
    changed := e.changed || decide (p.value ≠ e.value)
    lastRound := round }

/-- An entry against a frame of its source: refreshed if its point is offered, else marked NOT-OFFERED (R63, R64). -/
def applyToEntry (f : SlotFrame) (round : Byte) (e : Entry) : Entry :=
  if e.source = f.sender then
    match f.points[e.point.toNat]? with
    | some p => refreshEntry e p round
    | none => { e with notOffered := true }
  else e

/-- An entry that has reached its age limit is STALE (R68). -/
def staleIfReached (e : Entry) : Entry :=
  if (e.status = .live ∨ e.status = .held) ∧ e.ageLimit.toNat ≤ e.age then { e with status := .stale } else e

/-- An age step of one entry (R68). -/
def ageEntry (e : Entry) : Entry :=
  if e.status = .never then e
  else if e.fresh then { e with fresh := false }
  else staleIfReached { e with age := if e.age < 15 then e.age + 1 else 15 }

/-- RESTART of one entry (R76). -/
def restartEntry (e : Entry) : Entry :=
  let e1 := { e with fresh := false, notOffered := false }
  if e.status = .live ∨ e.status = .held then { e1 with status := .stale, age := e.ageLimit.toNat } else e1

/-- The detail of an ENTRY event: new status and NOT-OFFERED, then the status before (R200). -/
def entryDetail (old new : Entry) : Word :=
  mkWord (entryCode new.status ||| flagAt new.notOffered 4) (entryCode old.status)

/-- Post the ENTRY event of a place whose status or NOT-OFFERED has changed, if the entry reports (R73). -/
def postEntry (i : Nat) (old new : Entry) (s : State) : State :=
  if new.report = true ∧ (new.status ≠ old.status ∨ new.notOffered ≠ old.notOffered) then
    post .entry (BitVec.ofNat 8 i) (entryDetail old new) s
  else s

/-- Post the ENTRY events of an update in ascending place order, from place `i` on (R73). -/
def postEntries (f : Entry → Entry) : Nat → List (Option Entry) → State → State
  | _, [], s => s
  | i, none :: rest, s => postEntries f (i + 1) rest s
  | i, some e :: rest, s => postEntries f (i + 1) rest (postEntry i e (f e) s)

/-- The places of the entries that satisfy `p`, ascending, from place `i` on. -/
def placesWhere (p : Entry → Bool) : Nat → List (Option Entry) → List Nat
  | _, [] => []
  | i, none :: rest => placesWhere p (i + 1) rest
  | i, some e :: rest => if p e then i :: placesWhere p (i + 1) rest else placesWhere p (i + 1) rest

/-- One update of the whole table: every entry changes together, then the ENTRY events are posted in ascending place order,
then one notification names the places of `named`, if there is one (R66, R70, R71, R76). -/
def updateMirror (f : Entry → Entry) (named : Entry → Bool) (s : State) : State :=
  let s1 := postEntries f 0 s.mir (setMir (s.mir.map (Option.map f)) s)
  let places := placesWhere named 0 s.mir
  if places.isEmpty then s1 else notify (.entries places) s1

/-- A frame application (R62, R66): the notification names every entry of the sender (R71). -/
def applyFrame (f : SlotFrame) (s : State) : State :=
  updateMirror (applyToEntry f s.line.round) (fun e => decide (e.source = f.sender)) s

/-- An age step of the table (R68, R70): the notification names the entries whose status changes. -/
def ageStep (s : State) : State :=
  updateMirror ageEntry (fun e => decide ((ageEntry e).status ≠ e.status)) s

/-- RESTART of the table (R76): the notification names the entries whose status changes. -/
def restartMirror (s : State) : State :=
  updateMirror restartEntry (fun e => decide ((restartEntry e).status ≠ e.status)) s

/-- RECONFIGURE of the table (R75): the ENTRY events are posted and no notification is given. -/
def clearMirror (s : State) : State := updateMirror restartedEntry (fun _ => false) s

/-- The entry at a place becomes STALE if it has reached its age limit (R68). -/
def staleEntryAt (i : Nat) (s : State) : State :=
  match entryAt s.mir i with
  | some e =>
    let e1 := staleIfReached e
    if e1 = e then s
    else notify (.entries [i]) (postEntry i e e1 (setMir (s.mir.set i (some e1)) s))
  | none => s

/-- The number of entries of a status (R78). -/
def countStatus (st : EntryStatus) (m : List (Option Entry)) : Nat :=
  m.countP fun e => match e with
    | some e => decide (e.status = st)
    | none => false

end Sys2Proof.Machine
end

