-- ==== Sys2Proof/Machine/Outputs.lean ====
section
/-! DEFINITION. The output unit's updates: a confirmed change at the line rules, parking, the start of rule state (06). -/

namespace Sys2Proof.Machine

/-- Set the rule level of a line (R106 to R110). -/
def setLevel (i : Nat) (b : Bool) (s : State) : State :=
  setOut { s.out with level := putBit s.out.level i b } s

/-- A LATCH line's rising edge: a clear mark is set, the level is 1 and a LATCH event is posted; a set mark stays (R107, R118). -/
def latchEdge (i k : Nat) (s : State) : State :=
  if bitOf s.out.latched i then s
  else
    let s1 := setOut { s.out with latched := putBit s.out.latched i true, level := putBit s.out.level i true } s
    post .latch (BitVec.ofNat 8 i)
      (mkWord (BitVec.ofNat 8 k) (if s.out.mode = .drive then 0 else 1)) s1

/-- A PULSE line's rising edge: the level is 1 and the pulse timer runs from the full width (R108). -/
def pulseEdge (i : Nat) (width : Byte) (s : State) : State :=
  setOut { s.out with level := putBit s.out.level i true,
                               pulse := s.out.pulse.set i (startTimer false width.toNat s) } s

/-- A line's active rule acts on a change of condition `k` to `b`, if condition `k` is its source (R105 to R110). -/
def lineEdge (k : Nat) (b : Bool) (i : Nat) (s : State) : State :=
  match ruleAt s.out.active i with
  | some r =>
    match r.source with
    | .host => s
    | .cond c =>
      if c.val = k then
        match r.kind with
        | .follow => setLevel i b s
        | .invert => setLevel i (!b) s
        | .latch => if b then latchEdge i k s else s
        | .pulse => if b then pulseEdge i r.width s else s
        | .toggle => if b then setLevel i (!bitOf s.out.level i) s else s
      else s
  | none => s

/-- The rules of the lines act in ascending line order. -/
def linesEdge (k : Nat) (b : Bool) : List Nat → State → State
  | [], s => s
  | i :: rest, s => linesEdge k b rest (lineEdge k b i s)

/-- A confirmed change of condition `k` as one update of the output unit: the copy, the rules with their LATCH events in
ascending line order, then the pins and point 1 once (R105). -/
def outputUpdate (k : Nat) (b : Bool) (s : State) : State :=
  setPins (linesEdge k b (List.range 16) (setOut { s.out with copy := putBit s.out.copy k b } s))

/-- The rule state started afresh for a rule table (R120, R121): copies FALSE, marks clear, pulses idle, host levels 0. -/
def startRules (rules : List (Option OutRule)) (o : OutUnit) : OutUnit :=
  { o with
    active := rules
    level := startLevels rules
    latched := 0
    pulse := List.replicate 16 .idle
    hostLevel := 0
    copy := 0 }

/-- Entry to CONFIG: the parked levels are the safe levels of the active rules, the pins take them with point 1 told once,
then the rule state is cleared (R120). -/
def parkOutputs (s : State) : State :=
  let s1 := setPins (setOut { s.out with parked := safeLevels s.out.active, mode := .config } s)
  setOut (startRules s1.out.active s1.out) s1

/-- A pulse timer that runs expires: the level goes to 0 and the pin follows in DRIVE mode (R108). -/
def expirePulse (i : Nat) (s : State) : State :=
  match timerAt s.out.pulse i with
  | .running _ _ =>
    setPins (setOut { s.out with level := putBit s.out.level i false, pulse := s.out.pulse.set i .idle } s)
  | .idle => s

end Sys2Proof.Machine
end

