-- ==== Sys2Proof/Machine/Conditions.lean ====
section
/-! DEFINITION. The condition unit: terms, evaluation, confirmation, confirmed changes and passes (05). -/

namespace Sys2Proof.Machine

/-! ## Terms (R81, R85) -/

/-- The definition at a condition place, none for an undefined place. -/
def condAt (c : CondUnit) (k : Nat) : Option Condition := (c.defs[k]?).getD none

/-- The value a term reads: a point's value, an entry's value; a NEVER entry reads 0000h (R72, R81). -/
def refValue (s : State) : TermRef → Word
  | .point p => (pointAt s p.val).value
  | .entry i => match entryAt s.mir i.val with
    | some e => e.value
    | none => 0

/-- Whether a reference can be trusted, held-is-unknown set or clear (R85). -/
def refKnown (s : State) (heldUnknown : Bool) : TermRef → Bool
  | .point p => !(heldUnknown && decide ((pointAt s p.val).quality = .held))
  | .entry i => match entryAt s.mir i.val with
    | some e => match e.status with
      | .live => true
      | .held => !heldUnknown
      | .never => false
      | .stale => false
    | none => false

/-- A term that counts no bit is never unknown (R81, R85). -/
def termKnown (s : State) (heldUnknown : Bool) (t : Term) : Bool := decide (t.mask = 0) || refKnown s heldUnknown t.ref

/-- Some counted bit of the term fails to match (R84). -/
def termFails (s : State) (t : Term) : Bool := decide ((refValue s t.ref ^^^ t.pattern) &&& t.mask ≠ 0)

/-- Some counted bit of the term matches (R84). -/
def termMatches (s : State) (t : Term) : Bool := decide (~~~(refValue s t.ref ^^^ t.pattern) &&& t.mask ≠ 0)

/-! ## Evaluation (R84, R86) -/

/-- The evaluated result over the pool of the counted bits (R84). -/
def evaluated (s : State) (d : Condition) : Bool :=
  match d.mode with
  | .all => !d.terms.any (termFails s)
  | .any => d.terms.any (termMatches s)
  | .noneOf => !d.terms.any (termMatches s)
  | .notAll => d.terms.any (termFails s)

/-- Every term is known (R86). -/
def allKnown (s : State) (d : Condition) : Bool := d.terms.all (termKnown s d.heldUnknown)

/-- The raw result of an evaluation of condition `k` (R86, R87). -/
def rawResult (s : State) (k : Nat) (d : Condition) : Bool :=
  if allKnown s d then evaluated s d
  else match d.policy with
    | .false => false
    | .true => true
    | .keep => bitOf s.cond.raw k
    | .value => evaluated s d

/-! ## Confirmation (R92, R96) -/

/-- The detail of a CONDITION event: confirmed, sure, raw, and EXPIRY (R200). -/
def conditionDetail (s : State) (k : Nat) (b expiry : Bool) : Word :=
  mkWord (flagAt b 0 ||| flagAt (bitOf s.cond.sure k) 1 ||| flagAt (bitOf s.cond.raw k) 2 ||| flagAt expiry 3) 0

/-- A change of condition `k`'s confirmed result to `b`: the CONDITION event if it reports, then bit `k` of point 2 and the
output unit, which touch different state (R96). The announcement of point 2 is the caller's: within a pass it joins the pass (R89), else it is a notice. -/
def confirm (k : Nat) (d : Condition) (b expiry : Bool) (s : State) : State :=
  let s1 := setCond { s.cond with confirmed := putBit s.cond.confirmed k b } s
  let s2 := if d.report then post .condition (BitVec.ofNat 8 k) (conditionDetail s1 k b expiry) s1 else s1
  let p := pointAt s2 2
  outputUpdate k b (storePoint 2 ⟨putBit p.value k b, p.quality⟩ s2)

/-- The confirm time towards a result (R92). -/
def confirmTime (d : Condition) (b : Bool) : Nat := if b then d.t1.toNat else d.t0.toNat

/-- Set the raw result and the sure flag of condition `k` (R86). -/
def storeResult (k : Nat) (raw sure : Bool) (s : State) : State :=
  setCond { s.cond with raw := putBit s.cond.raw k raw, sure := putBit s.cond.sure k sure } s

/-- Set the confirm timer of condition `k`. -/
def setConfirmTimer (k : Nat) (t : Timer) (s : State) : State :=
  setCond { s.cond with timers := s.cond.timers.set k t } s

/-- Confirmation after an evaluation that gave `raw` (R92, R93): an idle timer starts towards a result that differs from the
confirmed one, or with a time of 0 the result is confirmed at once; a running timer is cancelled when they are equal. The
second component says that the confirmed result changed. -/
def confirmation (k : Nat) (d : Condition) (raw : Bool) (s : State) : State × Bool :=
  match timerAt s.cond.timers k with
  | .running _ _ => if raw = bitOf s.cond.confirmed k then (setConfirmTimer k .idle s, false) else (s, false)
  | .idle =>
    if raw = bitOf s.cond.confirmed k then (s, false)
    else if confirmTime d raw = 0 then (confirm k d raw false s, true)
    else (setConfirmTimer k (startTimer raw (confirmTime d raw) s) s, false)

/-- One evaluation of condition `k` (R84 to R86, R92, R93). -/
def evaluate (k : Nat) (d : Condition) (s : State) : State × Bool :=
  let raw := rawResult s k d
  confirmation k d raw (storeResult k raw (allKnown s d) s)

/-! ## Passes (R88, R89) -/

/-- Whether a notice concerns a term: a term with mask 0000h is concerned by none (R88). -/
def concernsTerm (n : Notice) (t : Term) : Bool :=
  decide (t.mask ≠ 0) && match n, t.ref with
    | .entries places, .entry i => places.contains i.val
    | .point p, .point q => decide (p = q.val)
    | .point2Quality, .point q => decide (q.val = 2)
    | .point2Bit k, .point q => decide (q.val = 2) && bitOf t.mask k
    | _, _ => false

/-- The defined conditions a notice concerns (R88). -/
def concerned (c : CondUnit) (n : Notice) : Word :=
  wordOf fun k => match condAt c k with
    | some d => d.terms.any (concernsTerm n)
    | none => false

/-- A pass over the listed conditions, ascending: each member is evaluated once, and a change confirmed at once brings in the
conditions that count the changed bit of point 2 (R89). -/
def passOver : List Nat → Word → State → State
  | [], _, s => s
  | k :: rest, members, s =>
    if bitOf members k then
      match condAt s.cond k with
      | some d =>
        let r := evaluate k d s
        passOver rest (if r.2 then members ||| concerned r.1.cond (.point2Bit k) else members) r.1
      | none => passOver rest members s
    else passOver rest members s

/-- A pass of the given members. -/
def pass (members : Word) (s : State) : State := passOver (List.range 16) members s

/-- Take the oldest held notice as a pass; in CONFIG the unit evaluates nothing (R83, R88, R90). -/
def takeNotice (s : State) : State :=
  if s.ctl.state = .config then s
  else match s.cond.notices with
    | [] => s
    | n :: rest => pass (concerned s.cond n) (setCond { s.cond with notices := rest } s)

/-- A confirm timer that runs expires: the confirmed result takes the result it ran towards, the change is handed on and
point 2's change is announced (R94, R96). DESIGN CHOICE (log 29), unsafe: the notice of point 1 from the output update comes
before the notice of point 2's bit, an order that R96 leaves open. -/
def expireConfirm (k : Nat) (s : State) : State :=
  match timerAt s.cond.timers k, condAt s.cond k with
  | .running b _, some d => notify (.point2Bit k) (confirm k d b true (setConfirmTimer k .idle s))
  | _, _ => s

/-- Every condition record at its starting values (R101). -/
def clearResults (c : CondUnit) : CondUnit :=
  { c with raw := 0, sure := 0, confirmed := 0, timers := List.replicate 16 .idle, notices := [] }

end Sys2Proof.Machine
end

