-- ==== Sys2Proof/Machine/Queries.lean ====
section
/-! DEFINITION. The query unit and the parameter store: tags, serving, answers, timeouts and aborts (07). -/

namespace Sys2Proof.Machine

/-! ## Serving the store (R132, R139) -/

/-- Whether the write-permit mask permits a served WRITE of a word (R123). -/
def permitted (s : State) (index : Byte) : Bool := bitOf s.par.permit index.toNat

/-- Store a host parameter (R122). -/
def storeWord (index : Byte) (value : Word) (s : State) : State :=
  setPar { s.par with host := s.par.host.set index.toNat value } s

/-- The outcome and the value of a served query (R139). -/
def serveOutcome (write : Bool) (index : Byte) (value : Word) (s : State) : Outcome × Word :=
  if !write then (.ok, paramWord s index.toNat)
  else if index.toNat < 16 then (if permitted s index then (.ok, value) else (.denied, 0))
  else (.badIndex, 0)

/-- The store after a served query: a permitted WRITE of a host parameter is stored and posts a PARAM event with the writer's
address (R139, R141). -/
def serveStore (write : Bool) (index : Byte) (value : Word) (writer : Byte) (s : State) : State :=
  if write = true ∧ index.toNat < 16 ∧ permitted s index = true then
    post .param index (mkWord 0 writer) (storeWord index value s)
  else s

/-! ## The outstanding query list (R129 to R138) -/

/-- Post the QUERY event of a query that becomes DONE (R141). -/
def postQuery (q : Query) (o : Outcome) (s : State) : State :=
  post .query (q.tag.setWidth 8) (mkWord (outcomeCode o) q.target) s

/-- A query made DONE with an outcome and a result value. -/
def finishQuery (o : Outcome) (value : Word) (q : Query) : Query :=
  { q with state := .done, outcome := some o, result := value }

/-- Post the QUERY events of the listed queries that satisfy `p`, in issue order (R141). -/
def postQueries (p : Query → Bool) (o : Outcome) : List Query → State → State
  | [], s => s
  | q :: rest, s => postQueries p o rest (if p q then postQuery q o s else s)

/-- Replace the outstanding query list. -/
def setQueries (queries : List Query) (s : State) : State := setQry { s.qry with queries := queries } s

/-- Make every query that satisfies `p` DONE with an outcome and value 0000h, posting in issue order (R135, R142). -/
def finishWhere (p : Query → Bool) (o : Outcome) (s : State) : State :=
  postQueries p o s.qry.queries
    (setQueries (s.qry.queries.map fun q => if p q then finishQuery o 0 q else q) s)

/-- A SENT query whose rounds waited have reached Q (R135). -/
def timedOut (timeout : Nat) (q : Query) : Bool := decide (q.state = .sent) && decide (timeout ≤ q.waited)

/-- The SENT queries whose rounds waited have reached Q become DONE with outcome TIMEOUT (R135). -/
def takeTimeouts (s : State) : State := finishWhere (timedOut s.settings.timeout.toNat) .timeout s

/-- A round close at the query unit: every SENT query has waited one round more, then the timeouts (R135). -/
def advanceQueries (s : State) : State :=
  takeTimeouts
    (setQueries (s.qry.queries.map fun q => if q.state = .sent then { q with waited := q.waited + 1 } else q) s)

/-- The notice of leaving SYNCED at the query unit: QUEUED and SENT queries are aborted, the pending answers dropped (R142). -/
def abortQueries (s : State) : State :=
  let s1 := finishWhere (fun q => decide (q.state ≠ .done)) .aborted s
  setQry { s1.qry with answers := [] } s1

/-- A non-FREE place holds the tag (R131). -/
def tagHeld (queries : List Query) (tag : BitVec 4) : Bool := queries.any fun q => decide (q.tag = tag)

/-- The first tag from `tag` upward, 15 wrapping to 0, that no non-FREE place holds, within `tries` tries (R131). -/
def freshTag (queries : List Query) : Nat → BitVec 4 → BitVec 4
  | 0, tag => tag
  | tries + 1, tag => if tagHeld queries tag then freshTag queries tries (tag + 1) else tag

/-- The first SENT query that an answer matches: target, tag and send round (R136). -/
def answerMatches (sender : Byte) (a : AnswerItem) (q : Query) : Bool :=
  decide (q.state = .sent) && decide (q.target = sender) && decide (q.tag = a.tag) && decide (q.sendRound = a.round)

/-- Replace the first query that satisfies `p`. -/
def replaceFirst (p : Query → Bool) (f : Query → Query) : List Query → List Query
  | [] => []
  | q :: rest => if p q then f q :: rest else q :: replaceFirst p f rest

/-- An answer item delivered to this station: it makes the matching SENT query DONE, or is late (R136). -/
def takeAnswerItem (sender : Byte) (a : AnswerItem) (s : State) : State :=
  match a.outcome, s.qry.queries.find? (answerMatches sender a) with
  | some o, some q =>
    postQuery q o (setQueries (replaceFirst (answerMatches sender a) (finishQuery o a.value) s.qry.queries) s)
  | _, _ => setCounters { s.par.counters with lateAnswers := satInc s.par.counters.lateAnswers } s

/-- A query item delivered to this station: dropped when four answers are pending, else served and its answer appended
(R139, R140). -/
def serveQueryItem (sender : Byte) (q : QueryItem) (s : State) : State :=
  if Config.answerPlaces ≤ s.qry.answers.length then
    setCounters { s.par.counters with droppedQueries := satInc s.par.counters.droppedQueries } s
  else
    let r := serveOutcome q.write q.index q.value s
    let s1 := serveStore q.write q.index q.value sender s
    setQry { s1.qry with answers := s1.qry.answers ++ [⟨sender, q.tag, s1.line.round, r.1, r.2⟩] } s1

/-- The oldest QUEUED query in issue order (R134). -/
def oldestQueued (queries : List Query) : Option Query := queries.find? fun q => decide (q.state = .queued)

/-- The carried query becomes SENT in the current round (R134). -/
def markSent (tag : BitVec 4) (s : State) : State :=
  setQueries (replaceFirst (fun q => decide (q.tag = tag) && decide (q.state = .queued))
    (fun q => { q with state := .sent, sendRound := s.line.round, waited := 0 }) s.qry.queries) s

/-- The carried answer leaves the pending-answer list (R140). -/
def removeAnswer (s : State) : State := setQry { s.qry with answers := s.qry.answers.tail } s

/-- The non-FREE places (R129). -/
def placesInUse (s : State) : Nat := s.qry.queries.length

end Sys2Proof.Machine
end

