-- ==== Sys2Proof/Machine/Station.lean ====
section
/-! DEFINITION. The station controller and the line unit's shared operations: slots, the round close, the changes of station
state, RESTART, RECONFIGURE and the start by COMMIT (01, 02). -/

namespace Sys2Proof.Machine

/-! ## The own frame (R12, R15) -/

/-- The OPEN frame of a round number (R12). -/
def ownOpen (s : State) (round : Byte) : List Byte :=
  buildOpen ⟨s.settings.address, round, s.ctl.signature, s.settings.slots⟩

/-- The query item of a QUEUED query; the value of a READ is 0000h (R134). -/
def itemOfQuery (q : Query) : QueryItem := ⟨q.target, q.write, q.tag, q.index, if q.write then q.value else 0⟩

/-- The answer item of a pending answer (R140). -/
def itemOfAnswer (a : Answer) : AnswerItem := ⟨a.requester, a.tag, a.round, some a.outcome, a.value⟩

/-- The contents of the own SLOT frame as the blocks stand: points 0 to n-1, the oldest QUEUED query, the oldest pending
answer, the hold flags and the round number (R15, R54). -/
def ownSlot (s : State) : SlotFrame where
  sender := s.settings.address
  round := s.line.round
  holds := s.ctl.holds
  points := s.pts.points.take (s.pts.publish.getD 0)
  query := (oldestQueued s.qry.queries).map itemOfQuery
  answer := s.qry.answers.head?.map itemOfAnswer

/-- What the own SLOT frame would carry as the blocks stand (R15, R54). -/
def slotPicture (s : State) : SlotPicture where
  chars := buildSlot (ownSlot s)
  query := (oldestQueued s.qry.queries).map fun q => q.tag
  answer := !s.qry.answers.isEmpty

/-- The own slot starts: the SLOT frame is gathered and waits out the rest of its frame gap of 1 CT (R15). It is what the blocks
gave at the slot start point: the picture of that moment where the start is recognised later, else as they stand (R54, R55). -/
def gather (elapsed : Nat) (picture : Option SlotPicture) (s : State) : State :=
  let p := picture.getD (slotPicture s)
  setLine { s.line with
      tx := .gap, gapTimer := some (s.ct - elapsed), txFrame := p.chars, txQuery := p.query, txAnswer := p.answer } s

/-- No own frame: the transmit frame and what it carried are let go; items stay with the query unit (R15, R16, R18). -/
def clearTx (tx : TxState) (l : LineUnit) : LineUnit :=
  { l with tx := tx, gapTimer := none, txFrame := [], txQuery := none, txAnswer := false }

/-- The OPEN frame of the next round begins at once, with readback (R12, R13). -/
def beginOpen (s : State) : State :=
  setLine { s.line with
      phase := .contention
      contention := none
      coldStart := none
      slotTimer := none
      slot := none
      tx := .sending .openFrame
      gapTimer := none
      txFrame := ownOpen s (s.line.round + 1)
      txQuery := none
      txAnswer := false } s

/-! ## Slots and the round close (R7, R9) -/

/-- Slot `k` starts; `elapsed` time has passed since its start point, of which `picture` was taken (R7; log 25). In the own slot the
frame is gathered. -/
def startSlot (k elapsed : Nat) (picture : Option SlotPicture) (s : State) : State :=
  let s1 := setLine { s.line with
      phase := .slots, slot := some k, slotTimer := some (4 * s.ct - elapsed), contention := none, coldStart := none } s
  if k = s.address then gather elapsed picture s1 else s1

/-- The lone counting of a round close (R39). -/
def loneClose (c : Controller) (limit : Nat) : Controller :=
  if c.heard then { c with heard := false }
  else if c.loneCounter < limit then { c with loneCounter := c.loneCounter + 1 }
  else c

/-- The lone counter has reached a lone limit of 1 or more: LONE is set (R39). -/
def loneReached (s : State) : State :=
  if 0 < s.settings.loneLimit.toNat ∧ s.ctl.loneCounter = s.settings.loneLimit.toNat then
    setHolds { s.ctl.holds with lone := true } s
  else s

/-- The station controller's response to a round close (R39): LONE is set only when the heard mark was clear. -/
def loneStep (s : State) : State :=
  let s1 := setCtl (loneClose s.ctl s.settings.loneLimit.toNat) s
  if s.ctl.heard then s1 else loneReached s1

/-- A round close is announced to the mirror table, the query unit and the station controller (R9). The rules give no order
among the three; the model takes them in this one (log 8). -/
def announceClose (s : State) : State := loneStep (advanceQueries (ageStep s))

/-- The contention wait is loaded, less the silence already past (R10, R11). -/
def loadContention (elapsed : Nat) (s : State) : State :=
  setLine { s.line with phase := .contention, slot := none, slotTimer := none,
                                 contention := some (s.contentionWait - elapsed) } s

/-- The round closes at the end of slot S-1 and the contention begins (R9 case a). -/
def closeRound (elapsed : Nat) (s : State) : State := loadContention elapsed (announceClose s)

/-- Slot `k` has ended `elapsed` time ago, at the moment of `picture`: the next slot starts, or the round closes after slot S-1
(R7). -/
def endSlot (k elapsed : Nat) (picture : Option SlotPicture) (s : State) : State :=
  if k + 1 < s.slots then startSlot (k + 1) elapsed picture s else closeRound elapsed s

/-- The current slot ends. After a collided own frame no picture of its end is asked for: the slot after the own one is another
station's (R7, R16). -/
def endCurrentSlot (elapsed : Nat) (s : State) : State :=
  match s.line.slot with
  | some k => endSlot k elapsed none s
  | none => s

/-! ## Leaving and entering station states (R26 to R33) -/

/-- The notice of leaving SYNCED (R33): queries aborted, answers dropped, lone counter and heard mark cleared, slot following
and contention ended. A frame gathered but not yet begun is dropped, its items unconsumed (log 23), and so are the pictures (R54). -/
def leaveSynced (s : State) : State :=
  let s1 := abortQueries s
  let line := if s1.line.tx = .gap then clearTx .idle s1.line else s1.line
  setCtl { s1.ctl with loneCounter := 0, heard := false }
    (setLine { line with slot := none, slotTimer := none, contention := none, pictures := [] } s1)

/-- The notice of leaving SYNCED, if the station is SYNCED. -/
def leaveIfSynced (s : State) : State := if s.ctl.state = .synced then leaveSynced s else s

/-- The line unit enters WATCH at an entry to LISTEN: foreign count set, runs cleared, cold-start timer loaded (R21, R28). -/
def watchForListen (foreign : Nat) (s : State) : State :=
  setLine { s.line with
      phase := .watch, slot := none, slotTimer := none, contention := none, coldStart := some s.coldStartWait,
      collisionRun := 0, driverRun := 0, foreignCount := foreign } s

/-- The controller's fields at an entry to LISTEN: no fault cause, age-step timer loaded with its full period (R30, R35, R41). -/
def controlForListen (s : State) : State :=
  setCtl { s.ctl with
      state := .listen, faultCause := .none, loneCounter := 0, heard := false, ageTimer := some s.agePeriod } s

/-- Sync loss (R30): word 24 advances and the station goes to LISTEN; the drive mode does not change. -/
def syncLoss (cause : StateCause) (foreign : Nat) (s : State) : State :=
  let s1 := setCounters { s.par.counters with syncLosses := satInc s.par.counters.syncLosses } s
  postState cause (updateDriveMode (watchForListen foreign (controlForListen (leaveSynced s1))))

/-- The line unit enters WATCH at entry to FAULT: slot following ends, contention and cold-start timers stop (R21). -/
def watchForFault (s : State) : State :=
  setLine { s.line with phase := .watch, slot := none, slotTimer := none, contention := none, coldStart := none } s

/-- Entry to FAULT from LISTEN or SYNCED (R31, R32). From SYNCED the notice of leaving is given and the age-step timer is
loaded; from LISTEN the timer runs on (R41). -/
def enterFault (fault : FaultCause) (cause : StateCause) (s : State) : State :=
  let s1 := leaveIfSynced s
  let age := if s.ctl.state = .synced then some s.agePeriod else s.ctl.ageTimer
  postState cause (updateDriveMode
    (setCtl { s1.ctl with state := .fault, faultCause := fault, ageTimer := age } (watchForFault s1)))

/-- A duplicate address is acted on in LISTEN and SYNCED and discarded elsewhere (R23, R31). -/
def duplicateAddress (s : State) : State :=
  if s.ctl.state = .listen ∨ s.ctl.state = .synced then enterFault .duplicate .duplicate s else s

/-- A driver fault is acted on in LISTEN and SYNCED and discarded elsewhere (R23, R32). -/
def driverFaulted (s : State) : State :=
  if s.ctl.state = .listen ∨ s.ctl.state = .synced then enterFault .driver .driver s else s

/-- The controller's fields at entry to SYNCED: age-step timer stopped, lone counter and heard mark cleared (R26, R27). -/
def controlForSynced (s : State) : State :=
  setCtl { s.ctl with state := .synced, ageTimer := none, loneCounter := 0, heard := false } s

/-- A join: the OPEN's round number is taken, the STATE event posted, slot 0 started at the end of the OPEN (R20, R26). -/
def join (round : Byte) (s : State) : State :=
  let s1 := controlForSynced s
  startSlot 0 0 none (postState .join (updateDriveMode (setLine { s1.line with round := round } s1)))

/-- A cold start: the station enters SYNCED and the OPEN begins at once (R13, R27). -/
def coldStarted (s : State) : State := beginOpen (postState .coldStart (updateDriveMode (controlForSynced s)))

/-- The foreign count has reached the foreign limit: the station enters FAULT(SIGNATURE) (R28). -/
def foreignReached (s : State) : State :=
  if Config.foreignLimit ≤ s.line.foreignCount then enterFault .signature .foreign s else s

/-! ## RESTART and RECONFIGURE (R35, R36) -/

/-- RESTART once no own frame is in transmission (R35, R76): QUERY events, ENTRY events, STATE, then HOLD if LONE was set. -/
def restartNow (s : State) : State :=
  let s1 := watchForListen 0 (controlForListen (restartMirror (leaveIfSynced s)))
  let old := s1.ctl.holds
  let s2 := updateDriveMode (setCtl { s1.ctl with holds := { old with lone := false } } s1)
  let s3 := postState .restart s2
  if old.lone then post .hold (holdByte s3.ctl.holds) (mkWord 0 (holdByte old)) s3 else s3

/-- The point records at entry to CONFIG and at COMMIT: point 2 at value 0000h with a quality, host points 0000h HELD (R51, R57). -/
def clearPoints (q : Quality) (s : State) : State :=
  setPts { s.pts with points := s.pts.points.take 2 ++ [⟨0, q⟩] ++ List.replicate 5 ⟨0, .held⟩ } s

/-- The line unit enters OFF: a reception in progress is abandoned uncounted, its activity no longer received (R21). -/
def lineOff (l : LineUnit) : LineUnit :=
  { l with phase := .off, slot := none, slotTimer := none, contention := none, coldStart := none,
           rx := if l.rx = .receiving then .ignoring else l.rx, dupReport := false, driverReport := false }

/-- The controller's fields at entry to CONFIG: hold reasons, fault cause, counter and mark cleared, settings kept (R36). -/
def controlForConfig (s : State) : State :=
  setCtl { s.ctl with
    state := .config, faultCause := .none, holds := HoldReasons.empty, loneCounter := 0, heard := false, ageTimer := none,
    driveMode := .safe } s

/-- RECONFIGURE once no own frame is in transmission (R36, R75, R101, R120, R143): QUERY events, ENTRY events, STATE, then
HOLD if the hold reasons were not empty. Nothing is announced: the points change in CONFIG (R56). -/
def reconfigureNow (s : State) : State :=
  let s1 := clearMirror (leaveIfSynced s)
  let old := s1.ctl.holds
  let s2 := controlForConfig (setLine (lineOff s1.line) (setCond (clearResults s1.cond)
    (setQry { s1.qry with queries := [], answers := [] } (setPts { s1.pts with driveMode := .safe } s1))))
  let s3 := postState .reconfigure (clearPoints .held (parkOutputs s2))
  if old = HoldReasons.empty then s3 else post .hold (holdByte HoldReasons.empty) (mkWord 0 (holdByte old)) s3

/-- Make a held command (R37). -/
def makeHeld (c : HeldCommand) (s : State) : State :=
  match c with
  | .restart => restartNow s
  | .reconfigure => reconfigureNow s

/-! ## The start by COMMIT (R175) -/

/-- Steps 1 and 2: the signature and the committed settings; the point unit takes F, n and the invert mask, and point 0 is
formed again unannounced (R47, R174). -/
def commitSettings (s : State) : State :=
  let c := s.ctl.edited
  formPoint0 (setCtl { s.ctl with signature := signatureOf c, committed := some c }
    (setPts { s.pts with filterTime := c.filter, invert := c.invert, publish := some c.publish.toNat } s))

/-- Step 3: the blocks start their runtime (R21, R51, R75, R101, R121, R143). -/
def commitBlocks (s : State) : State :=
  clearPoints .held (setMir (s.mir.map (Option.map restartedEntry)) (setCond (clearResults s.cond)
    (setOut (startRules s.out.edited s.out) (setQry { s.qry with queries := [], answers := [] } s))))

/-- Steps 4 and 5: LISTEN with no hold reason, the line unit in WATCH, DRIVE mode at the pins and point 2, the STATE event
(R24, R50, R121). -/
def commitEnter (s : State) : State :=
  let s1 := watchForListen 0 (controlForListen (setCtl { s.ctl with holds := HoldReasons.empty } s))
  postState .commit (giveDriveMode .drive s1)

/-- A successful COMMIT (R175): steps 1 to 5, then the initial evaluation of every defined condition (R91). -/
def commitNow (s : State) : State := pass 0xFFFF (commitEnter (commitBlocks (commitSettings s)))

end Sys2Proof.Machine
end

