-- ==== Sys2Proof/Machine/Replies.lean ====
section
/-! DEFINITION. The form of a command's body: its checks, its effects and its reply (R153, R154, R157, R177). -/

namespace Sys2Proof.Machine

/-- A reply: a status and its data bytes (R153). -/
structure Reply where
  status : Status
  data : List Byte
deriving DecidableEq, Repr

/-- The bytes of a reply: the status, the length byte M, the data (08, Phases and messages). -/
def replyBytes (r : Reply) : List Byte := statusCode r.status :: BitVec.ofNat 8 r.data.length :: r.data

/-- The result of a command's execution: its reply, none while the command is held (R37), and the state. -/
abbrev Result := Option Reply × State

/-- A refusal by a reply status: nothing is changed (R153). -/
def refuse (st : Status) (s : State) : Result := (some ⟨st, []⟩, s)

/-- The reply OK with data. -/
def okWith (data : List Byte) (s : State) : Result := (some ⟨.ok, data⟩, s)

/-- The reply OK with no data. -/
def okPlain (s : State) : Result := okWith [] s

/-- A command accepted in CONFIG only (R157, R177). -/
def inConfig (s : State) (r : Result) : Result := if s.ctl.state = .config then r else refuse .wrongState s

/-- A command accepted in LISTEN, SYNCED and FAULT (R177). -/
def whenRunning (s : State) (r : Result) : Result := if s.ctl.state = .config then refuse .wrongState s else r

end Sys2Proof.Machine
end

