-- ==== Sys2Proof/Machine/ConfigCommands.lean ====
section
/-! DEFINITION. The configuration commands, COMMIT with its checks, and READ-CONFIG (09). -/

namespace Sys2Proof.Machine

/-! ## The configuration commands (R157 to R167) -/

/-- SET-STATION (R158): the nine edited settings and their set mark. -/
def cmdSetStation (ops : List Byte) (s : State) : Result :=
  match ops with
  | [address, slots, rate, keyHi, keyLo, publish, filter, invHi, invLo, lone, timeout] =>
    let c : Settings := ⟨address, slots, rate, mkWord keyHi keyLo, publish, filter, mkWord invHi invLo, lone, timeout⟩
    inConfig s (if settingsInRange c then okPlain (setCtl { s.ctl with edited := c, editedSet := true } s)
      else refuse .badOperand s)
  | _ => refuse .badLength s

/-- Replace the place of the mirror table. -/
def setPlace (i : Nat) (e : Option Entry) (s : State) : State := setMir (s.mir.set i e) s

/-- SET-ENTRY (R160): the place is defined, its runtime fields at their starting values. -/
def cmdSetEntry (ops : List Byte) (s : State) : Result :=
  match ops with
  | [place, source, point, ageLimit, report] =>
    inConfig s
      (if place.toNat ≤ 63 ∧ source.toNat ≤ 31 ∧ point.toNat ≤ 7 ∧ 1 ≤ ageLimit.toNat ∧ ageLimit.toNat ≤ 15 then
        match readFlag report with
        | some r => okPlain (setPlace place.toNat (some (freshEntry source point ageLimit r)) s)
        | none => refuse .badOperand s
      else refuse .badOperand s)
  | _ => refuse .badLength s

/-- CLEAR-ENTRY (R161). -/
def cmdClearEntry (ops : List Byte) (s : State) : Result :=
  match ops with
  | [place] => inConfig s (if place.toNat ≤ 63 then okPlain (setPlace place.toNat none s) else refuse .badOperand s)
  | _ => refuse .badLength s

/-- Replace the definition at a condition place. -/
def setDef (k : Nat) (d : Option Condition) (s : State) : State :=
  setCond { s.cond with defs := s.cond.defs.set k d } s

/-- The length of a SET-CONDITION message: 12, 17, 22 or 27 (R178). -/
def conditionLength (n : Nat) : Bool := decide (n = 12 ∨ n = 17 ∨ n = 22 ∨ n = 27)

/-- SET-CONDITION (R162): the whole definition, terms included. -/
def cmdSetCondition (ops : List Byte) (s : State) : Result :=
  match ops with
  | place :: mode :: policy :: heldUnknown :: report :: t1 :: t0 :: terms =>
    if conditionLength ops.length then
      inConfig s
        (if place.toNat ≤ 15 then
          match readCondition mode policy heldUnknown report t1 t0 terms with
          | some d => okPlain (setDef place.toNat (some d) s)
          | none => refuse .badOperand s
        else refuse .badOperand s)
    else refuse .badLength s
  | _ => refuse .badLength s

/-- CLEAR-CONDITION (R164). -/
def cmdClearCondition (ops : List Byte) (s : State) : Result :=
  match ops with
  | [place] => inConfig s (if place.toNat ≤ 15 then okPlain (setDef place.toNat none s) else refuse .badOperand s)
  | _ => refuse .badLength s

/-- Replace the edited rule of a line. -/
def setRule (i : Nat) (r : Option OutRule) (s : State) : State :=
  setOut { s.out with edited := s.out.edited.set i r } s

/-- SET-OUTPUT (R165): the edited rule only. -/
def cmdSetOutput (ops : List Byte) (s : State) : Result :=
  match ops with
  | [line, source, kind, safe, width] =>
    inConfig s
      (if line.toNat ≤ 15 then
        match readRule source kind safe width with
        | some r => okPlain (setRule line.toNat (some r) s)
        | none => refuse .badOperand s
      else refuse .badOperand s)
  | _ => refuse .badLength s

/-- CLEAR-OUTPUT (R166). -/
def cmdClearOutput (ops : List Byte) (s : State) : Result :=
  match ops with
  | [line] => inConfig s (if line.toNat ≤ 15 then okPlain (setRule line.toNat none s) else refuse .badOperand s)
  | _ => refuse .badLength s

/-- SET-PERMIT (R167). -/
def cmdSetPermit (ops : List Byte) (s : State) : Result :=
  match ops with
  | [hi, lo] => inConfig s (okPlain (setPar { s.par with permit := mkWord hi lo } s))
  | _ => refuse .badLength s

/-! ## The checks of COMMIT (R169 to R173) -/

/-- A COMMIT check that fails: the check and the item index. -/
abbrev Failure := Check × Nat

/-- A defined entry among the places below shares source and point index (R171). -/
def twinBelow (e : Entry) (below : List (Option Entry)) : Bool :=
  below.any fun o => match o with
    | some x => decide (x.source = e.source) && decide (x.point = e.point)
    | none => false

/-- Step 3: the defined entry places, ascending; `below` holds the places before place `i` (R171). -/
def checkEntries (c : Settings) : Nat → List (Option Entry) → List (Option Entry) → Option Failure
  | _, _, [] => none
  | i, below, o :: rest =>
    match o with
    | some e =>
      if e.source = c.address ∨ c.slots.toNat ≤ e.source.toNat then some (.entrySource, i)
      else if twinBelow e below then some (.entryDuplicate, i)
      else checkEntries c (i + 1) (below ++ [o]) rest
    | none => checkEntries c (i + 1) (below ++ [o]) rest

/-- A mask counts only conditions below `c` that are defined (R172). -/
def countsBelow (cu : CondUnit) (c : Nat) (mask : Word) : Bool :=
  (List.range 16).all fun k => !bitOf mask k || (decide (k < c) && (condAt cu k).isSome)

/-- The check of one term of condition `c` (R172). -/
def checkTerm (s : State) (c : Nat) (t : Term) : Option Check :=
  match t.ref with
  | .entry i => if (entryAt s.mir i.val).isSome then none else some .termEntry
  | .point p =>
    if p.val = 1 then some .termOwnOutput
    else if p.val = 2 then (if countsBelow s.cond c t.mask then none else some .termOrder)
    else none

/-- The first failing check of the terms in order (R172). -/
def checkTerms (s : State) (c : Nat) : List Term → Option Check
  | [] => none
  | t :: rest =>
    match checkTerm s c t with
    | some x => some x
    | none => checkTerms s c rest

/-- The checks of one defined condition: its terms in order, then EMPTY (R172). -/
def checkCondition (s : State) (c : Nat) (d : Condition) : Option Check :=
  match checkTerms s c d.terms with
  | some x => some x
  | none => if d.terms.all fun t => decide (t.mask = 0) then some .empty else none

/-- Step 4: the defined condition places, ascending (R172). -/
def checkConditions (s : State) : Nat → List (Option Condition) → Option Failure
  | _, [] => none
  | c, none :: rest => checkConditions s (c + 1) rest
  | c, some d :: rest =>
    match checkCondition s c d with
    | some x => some (x, c)
    | none => checkConditions s (c + 1) rest

/-- Step 5: the defined output lines, ascending (R173). -/
def checkOutputs (s : State) : Nat → List (Option OutRule) → Option Failure
  | _, [] => none
  | i, none :: rest => checkOutputs s (i + 1) rest
  | i, some r :: rest =>
    match r.source with
    | .cond k => if (condAt s.cond k.val).isSome then checkOutputs s (i + 1) rest else some (.outputSource, i)
    | .host => checkOutputs s (i + 1) rest

/-- Steps 1 to 5 of the validation; the first failure ends it (R169, R170). -/
def validate (s : State) : Option Failure :=
  if s.ctl.editedSet = false then some (.noStation, 0)
  else if s.ctl.edited.slots.toNat ≤ s.ctl.edited.address.toNat then some (.address, 0)
  else match checkEntries s.ctl.edited 0 [] s.mir with
    | some f => some f
    | none => match checkConditions s 0 s.cond.defs with
      | some f => some f
      | none => checkOutputs s 0 s.out.edited

/-- COMMIT (R169, R175). -/
def cmdCommit (ops : List Byte) (s : State) : Result :=
  match ops with
  | [] =>
    inConfig s (match validate s with
      | some (c, i) => (some ⟨.invalidConfig, [checkCode c, BitVec.ofNat 8 i]⟩, s)
      | none => okWith (wordBytes (signatureOf s.ctl.edited)) (commitNow s))
  | _ => refuse .badLength s

/-! ## READ-CONFIG (R168) -/

/-- The fields of an entry (Fig. 22). -/
def entryBytes (e : Entry) : List Byte := [e.source, e.point, e.ageLimit, flagByte e.report]

/-- The fields of a condition (Fig. 22). -/
def conditionBytes (d : Condition) : List Byte :=
  [modeCode d.mode, policyCode d.policy, flagByte d.heldUnknown, flagByte d.report, d.t1, d.t0,
   BitVec.ofNat 8 d.terms.length] ++ d.terms.flatMap termBytes

/-- The fields of a line rule (Fig. 22). -/
def ruleBytes (r : OutRule) : List Byte := [sourceCode r.source, kindOperand r.kind, flagByte r.safe, r.width]

/-- The defined mark and the fields of an item; an undefined item has every field 0 (R168, R198). -/
def definedBytes {α : Type} (fields : α → List Byte) (n : Nat) : Option α → List Byte
  | some a => 1 :: fields a
  | none => 0 :: List.replicate n 0

/-- READ-CONFIG (R168): the edited definitions, accepted in every state. -/
def cmdReadConfig (ops : List Byte) (s : State) : Result :=
  match ops with
  | [kind, index] =>
    let i := index.toNat
    if kind = 0 then
      if i = 0 then okWith ([kind, index, flagByte s.ctl.editedSet] ++ settingsBytes s.ctl.edited) s
      else refuse .badOperand s
    else if kind = 1 then
      if i ≤ 63 then okWith ([kind, index] ++ definedBytes entryBytes 4 (entryAt s.mir i)) s else refuse .badOperand s
    else if kind = 2 then
      if i ≤ 15 then okWith ([kind, index] ++ definedBytes conditionBytes 7 (condAt s.cond i)) s
      else refuse .badOperand s
    else if kind = 3 then
      if i ≤ 15 then okWith ([kind, index] ++ definedBytes ruleBytes 4 (ruleAt s.out.edited i)) s
      else refuse .badOperand s
    else if kind = 4 then
      if i = 0 then okWith ([kind, index, 1] ++ wordBytes s.par.permit) s else refuse .badOperand s
    else refuse .badOperand s
  | _ => refuse .badLength s

end Sys2Proof.Machine
end

