-- ==== Sys2Proof/Machine/RunCommands.lean ====
section
/-! DEFINITION. The commands of every state, the station commands and the run-time commands (02 to 07, 10). -/

namespace Sys2Proof.Machine

/-! ## Every state (R180) -/

/-- GET-STATUS (R182). -/
def cmdGetStatus (ops : List Byte) (s : State) : Result :=
  match ops with
  | [] =>
    okWith ([stateCode s.ctl.state, faultCode s.ctl.faultCause, holdByte s.ctl.holds, s.settings.address, s.settings.slots,
        s.line.round] ++ wordBytes s.ctl.signature ++
      [BitVec.ofNat 8 (countStatus .never s.mir), BitVec.ofNat 8 (countStatus .live s.mir),
       BitVec.ofNat 8 (countStatus .held s.mir), BitVec.ofNat 8 (countStatus .stale s.mir),
       BitVec.ofNat 8 (placesInUse s), BitVec.ofNat 8 s.evq.length]) s
  | _ => refuse .badLength s

/-- READ-PARAMETER (R126). -/
def cmdReadParameter (ops : List Byte) (s : State) : Result :=
  match ops with
  | [index] => if index.toNat ≤ 31 then okWith (wordBytes (paramWord s index.toNat)) s else refuse .badOperand s
  | _ => refuse .badLength s

/-- WRITE-PARAMETER (R127): whatever the permit mask holds. -/
def cmdWriteParameter (ops : List Byte) (s : State) : Result :=
  match ops with
  | [index, hi, lo] =>
    if index.toNat ≤ 15 then okPlain (storeWord index (mkWord hi lo) s) else refuse .badOperand s
  | _ => refuse .badLength s

/-- CLEAR-COUNTERS (R125, R184). -/
def cmdClearCounters (ops : List Byte) (s : State) : Result :=
  match ops with
  | [] => okPlain (setCounters Counters.zero s)
  | _ => refuse .badLength s

/-- TAKE-EVENT (R192): the oldest record, or M of 0 on an empty queue. -/
def cmdTakeEvent (ops : List Byte) (s : State) : Result :=
  match ops with
  | [] =>
    match s.evq with
    | [] => okPlain s
    | r :: rest => okWith (recordBytes r) (setEvq rest s)
  | _ => refuse .badLength s

/-! ## Station commands (R35 to R38) -/

/-- A RESTART or RECONFIGURE is held while an own frame is in transmission, else made at once (R37). -/
def holdOrMake (c : HeldCommand) (s : State) : Result :=
  if txSending s then (none, setCtl { s.ctl with held := some c } s) else okPlain (makeHeld c s)

/-- RECONFIGURE (R36). -/
def cmdReconfigure (ops : List Byte) (s : State) : Result :=
  match ops with
  | [] => whenRunning s (holdOrMake .reconfigure s)
  | _ => refuse .badLength s

/-- RESTART (R35). -/
def cmdRestart (ops : List Byte) (s : State) : Result :=
  match ops with
  | [] => whenRunning s (holdOrMake .restart s)
  | _ => refuse .badLength s

/-- Change the HOST hold reason; the reply carries the reasons after the command (R38, R181). -/
def changeHost (b : Bool) (s : State) : Result :=
  let s1 := setHolds { s.ctl.holds with host := b } s
  okWith [holdByte s1.ctl.holds] s1

/-- HOLD (R38). -/
def cmdHold (ops : List Byte) (s : State) : Result :=
  match ops with
  | [] => whenRunning s (changeHost true s)
  | _ => refuse .badLength s

/-- RESUME (R38). -/
def cmdResume (ops : List Byte) (s : State) : Result :=
  match ops with
  | [] => whenRunning s (changeHost false s)
  | _ => refuse .badLength s

/-! ## Run-time commands -/

/-- WRITE-POINT (R52). -/
def cmdWritePoint (ops : List Byte) (s : State) : Result :=
  match ops with
  | [point, hi, lo, quality] =>
    whenRunning s
      (if 3 ≤ point.toNat ∧ point.toNat ≤ 7 then
        match readQuality quality with
        | some q => okPlain (changePoint point.toNat ⟨mkWord hi lo, q⟩ (.point point.toNat) s)
        | none => refuse .badOperand s
      else refuse .badOperand s)
  | _ => refuse .badLength s

/-- READ-POINTS (R53). -/
def cmdReadPoints (ops : List Byte) (s : State) : Result :=
  match ops with
  | [] =>
    whenRunning s
      (okWith (((List.range 8).flatMap fun i => wordBytes (pointAt s i).value) ++
        [qualityBits 0 ((List.range 8).map (pointAt s))] ++ wordBytes s.pts.raw ++
        wordBytes (runningMask s.pts.filterTimers) ++ [BitVec.ofNat 8 (s.pts.publish.getD 0)]) s)
  | _ => refuse .badLength s

/-- READ-ENTRY (R77): the record as it stands, then CHANGED is cleared. -/
def cmdReadEntry (ops : List Byte) (s : State) : Result :=
  match ops with
  | [place] =>
    whenRunning s
      (if place.toNat ≤ 63 then
        match entryAt s.mir place.toNat with
        | some e =>
          okWith (wordBytes e.value ++ [entryCode e.status, BitVec.ofNat 8 e.age, flagByte e.notOffered,
            flagByte e.changed, e.lastRound]) (setMir (s.mir.set place.toNat (some { e with changed := false })) s)
        | none => refuse .notFound s
      else refuse .badOperand s)
  | _ => refuse .badLength s

/-- The defined condition places as a vector (R100). -/
def definedMask (c : CondUnit) : Word := wordOf fun k => (condAt c k).isSome

/-- READ-CONDITIONS (R100): undefined places read 0 in every vector. -/
def cmdReadConditions (ops : List Byte) (s : State) : Result :=
  match ops with
  | [] =>
    let d := definedMask s.cond
    whenRunning s
      (okWith (wordBytes d ++ wordBytes (s.cond.raw &&& d) ++ wordBytes (s.cond.sure &&& d) ++
        wordBytes (s.cond.confirmed &&& d) ++ wordBytes (runningMask s.cond.timers &&& d)) s)
  | _ => refuse .badLength s

/-- READ-OUTPUTS (R119): lines that are not LATCH or not PULSE read 0 in those vectors. -/
def cmdReadOutputs (ops : List Byte) (s : State) : Result :=
  match ops with
  | [] =>
    whenRunning s
      (okWith (wordBytes s.out.pins ++ wordBytes (ruleLevels s.out) ++
        wordBytes (s.out.latched &&& wordOf (isKindLine s.out.active .latch)) ++
        wordBytes (runningMask s.out.pulse &&& wordOf (isKindLine s.out.active .pulse))) s)
  | _ => refuse .badLength s

/-- The host levels of the masked lines take the bits of the level vector (R115). -/
def writeHostLevels (mask levels : Word) (s : State) : State :=
  setPins (setOut { s.out with hostLevel := (s.out.hostLevel &&& ~~~mask) ||| (levels &&& mask) } s)

/-- SET-OUTPUTS (R115). -/
def cmdSetOutputs (ops : List Byte) (s : State) : Result :=
  match ops with
  | [maskHi, maskLo, levHi, levLo] =>
    let mask := mkWord maskHi maskLo
    whenRunning s
      (if mask &&& ~~~(hostLines s.out.active) = 0 then okPlain (writeHostLevels mask (mkWord levHi levLo) s)
       else refuse .badOperand s)
  | _ => refuse .badLength s

/-- The lines whose rule has a condition source that the output unit's copy holds TRUE (R116). -/
def sourceTrue (o : OutUnit) : Word :=
  wordOf fun i => match ruleAt o.active i with
    | some r => match r.source with
      | .cond k => bitOf o.copy k.val
      | .host => false
    | none => false

/-- Clear the latched marks and the levels of the lines of a mask (R116). -/
def clearLatched (cleared : Word) (s : State) : State :=
  setPins (setOut { s.out with latched := s.out.latched &&& ~~~cleared, level := s.out.level &&& ~~~cleared } s)

/-- UNLATCH (R116): set marks with a FALSE source are cleared; lines with a TRUE source are reported still active. -/
def cmdUnlatch (ops : List Byte) (s : State) : Result :=
  match ops with
  | [maskHi, maskLo] =>
    let mask := mkWord maskHi maskLo
    whenRunning s
      (if mask &&& ~~~(wordOf (isKindLine s.out.active .latch)) = 0 then
        let active := mask &&& sourceTrue s.out
        let cleared := mask &&& s.out.latched &&& ~~~(sourceTrue s.out)
        (some ⟨if active = 0 then .ok else .stillActive, wordBytes cleared ++ wordBytes active⟩, clearLatched cleared s)
      else refuse .badOperand s)
  | _ => refuse .badLength s

/-- Append a query to the issue order and set the tag counter one above its tag (R131, R133). -/
def issueQuery (q : Query) (s : State) : State :=
  setQry { s.qry with queries := s.qry.queries ++ [q], tagCounter := q.tag + 1 } s

/-- An accepted QUERY: queued for a peer, or served at once against the own store (R131 to R133). R133 leaves the result value
"not yet set": it is held as 0000h until DONE; and R132 names no send round and no rounds waited for the place of a self query:
they are held as 0 (both DESIGN CHOICE, log 34). -/
def acceptQuery (target : Byte) (write : Bool) (index : Byte) (value : Word) (s : State) : Result :=
  let tag := freshTag s.qry.queries Config.queryPlaces s.qry.tagCounter
  let q : Query := ⟨.queued, target, write, index, if write then value else 0, tag, 0, 0, none, 0⟩
  if target.toNat = s.address then
    let r := serveOutcome write index value s
    okWith [tag.setWidth 8]
      (postQuery q r.1 (issueQuery (finishQuery r.1 r.2 q) (serveStore write index value target s)))
  else okWith [tag.setWidth 8] (issueQuery q s)

/-- QUERY (R130). -/
def cmdQuery (ops : List Byte) (s : State) : Result :=
  match ops with
  | [target, operation, index, hi, lo] =>
    whenRunning s
      (if s.ctl.state ≠ .synced then refuse .notSynced s
       else match readFlag operation with
        | some write =>
          if target.toNat < s.slots ∧ index.toNat ≤ 31 ∧ (write = false ∨ index.toNat ≤ 15) then
            if s.qry.queries.length < Config.queryPlaces then acceptQuery target write index (mkWord hi lo) s
            else refuse .full s
          else refuse .badOperand s
        | none => refuse .badOperand s)
  | _ => refuse .badLength s

/-- TAKE-ANSWER (R138). -/
def cmdTakeAnswer (ops : List Byte) (s : State) : Result :=
  match ops with
  | [tag] =>
    whenRunning s
      (if tag.toNat ≤ 15 then
        match s.qry.queries.find? fun q => decide (q.tag = tagOf tag) with
        | some q =>
          if q.state = .done then
            okWith ([outcomeCode (q.outcome.getD .ok)] ++ wordBytes q.result ++ [q.target, q.index])
              (setQueries (s.qry.queries.eraseP fun x => decide (x.tag = tagOf tag)) s)
          else refuse .notReady s
        | none => refuse .notFound s
      else refuse .badOperand s)
  | _ => refuse .badLength s

end Sys2Proof.Machine
end

