-- ==== Sys2Proof/Machine/Port.lean ====
section
/-! DEFINITION. The host port: accesses, phases, message framing, PERR, the end of execution and the port reset (08). -/

namespace Sys2Proof.Machine

/-! ## Execution (R147, R148) -/

/-- A message is complete: the phase is EXECUTING, the buffer holds it (R147). -/
def beginExecution (message : List Byte) (s : State) : State :=
  setPort { s.port with phase := .executing, buf := message, len := some (message.length - 2) } s

/-- The command and the reply buffer emptied (R156). No length is then received, and the read position is 0 (DESIGN CHOICE,
log 30, unsafe). -/
def emptyBuffers (p : HostPort) : HostPort := { p with buf := [], len := none, reply := [], pos := 0 }

/-- The port after an execution has ended: the reply is placed, or discarded with the discard mark set (R148). Without a reply
the read position is 0 (DESIGN CHOICE, log 30). -/
def endPort (r : Reply) (p : HostPort) : HostPort :=
  if p.discard then { emptyBuffers p with phase := .ready, discard := false }
  else { p with phase := .replying, buf := [], len := none, reply := replyBytes r, pos := 0 }

/-- The end of a command's execution (R148). -/
def endExecution (r : Reply) (s : State) : State := setPort (endPort r s.port) s

/-- Run a command's body on a complete message: the reply is placed at its end; a held command stays in EXECUTING (R37, R148). -/
def execute (message : List Byte) (body : State → Result) (s : State) : State :=
  match body (beginExecution message s) with
  | (some r, s1) => endExecution r s1
  | (none, s1) => s1

/-- The body of a command by its constructor: its checks, effects and reply. What is no known command's message gets
BAD-COMMAND (R147). -/
def bodyOf (i : Instr) : State → Result :=
  match i with
  | .setStation ops => cmdSetStation ops
  | .setEntry ops => cmdSetEntry ops
  | .clearEntry ops => cmdClearEntry ops
  | .setCondition ops => cmdSetCondition ops
  | .clearCondition ops => cmdClearCondition ops
  | .setOutput ops => cmdSetOutput ops
  | .clearOutput ops => cmdClearOutput ops
  | .setPermit ops => cmdSetPermit ops
  | .commit ops => cmdCommit ops
  | .readConfig ops => cmdReadConfig ops
  | .getStatus ops => cmdGetStatus ops
  | .readParameter ops => cmdReadParameter ops
  | .writeParameter ops => cmdWriteParameter ops
  | .clearCounters ops => cmdClearCounters ops
  | .takeEvent ops => cmdTakeEvent ops
  | .reconfigure ops => cmdReconfigure ops
  | .restart ops => cmdRestart ops
  | .hold ops => cmdHold ops
  | .resume ops => cmdResume ops
  | .writePoint ops => cmdWritePoint ops
  | .readPoints ops => cmdReadPoints ops
  | .readEntry ops => cmdReadEntry ops
  | .readConditions ops => cmdReadConditions ops
  | .readOutputs ops => cmdReadOutputs ops
  | .setOutputs ops => cmdSetOutputs ops
  | .unlatch ops => cmdUnlatch ops
  | .query ops => cmdQuery ops
  | .takeAnswer ops => cmdTakeAnswer ops
  | .hardwareReset _ => refuse .badCommand
  | .hostDataWrite _ => refuse .badCommand
  | .dataRead => refuse .badCommand
  | .portReset _ => refuse .badCommand
  | .badCommand _ _ => refuse .badCommand
  | .heldCommandRelease => refuse .badCommand
  | .receptionEnd _ => refuse .badCommand
  | .foreignLimit => refuse .badCommand
  | .skipPoint => refuse .badCommand
  | .entryStale _ => refuse .badCommand
  | .queryTimeout => refuse .badCommand
  | .lone => refuse .badCommand
  | .transmissionStart => refuse .badCommand
  | .transmissionComplete => refuse .badCommand
  | .collision => refuse .badCommand
  | .collisionLimit => refuse .badCommand
  | .driverError => refuse .badCommand
  | .driverFault => refuse .badCommand
  | .contentionTimeout => refuse .badCommand
  | .coldStart => refuse .badCommand
  | .ageStepTimer => refuse .badCommand
  | .inputChange _ _ => refuse .badCommand
  | .filterExpiry _ => refuse .badCommand
  | .conditionPass => refuse .badCommand
  | .confirmExpiry _ => refuse .badCommand
  | .pulseExpiry _ => refuse .badCommand
  | .startBit => refuse .badCommand
  | .collidedFrameEnd => refuse .badCommand

/-- Run the command of a complete message, looked up by its code byte (R147). -/
def runMessage (code : Byte) (ops message : List Byte) (s : State) : State :=
  execute message (bodyOf (decodeMessage code ops)) s

/-! ## Data writes (R146) -/

/-- PERR is set and the byte discarded; the phase stays (R146, R150). -/
def setPerr (s : State) : State := setPort { s.port with perr := true } s

/-- A length byte in FILLING: above 30 it sets PERR and empties the buffer; 0 completes the message (R146). -/
def writeLength (b : Byte) (s : State) : State :=
  if Config.longestMessage < b.toNat then
    setPort { s.port with phase := .ready, buf := [], len := none, perr := true } s
  else
    let buf := s.port.buf ++ [b]
    if b = 0 then runMessage (buf.headD 0) [] buf s
    else setPort { s.port with buf := buf, len := some b.toNat } s

/-- An operand byte in FILLING: the (2+L)th byte of the message completes it (R146). -/
def writeOperand (len : Nat) (b : Byte) (s : State) : State :=
  let buf := s.port.buf ++ [b]
  if buf.length = 2 + len then runMessage (buf.headD 0) (buf.drop 2) buf s
  else setPort { s.port with buf := buf } s

/-- A write on the data path by the phase it finds (R146). While PERR is set every data write is discarded (R150). -/
def dataWrite (b : Byte) (s : State) : State :=
  if s.port.perr then s
  else match s.port.phase with
    | .ready => setPort { s.port with phase := .filling, buf := [b], len := none } s
    | .filling => match s.port.len with
      | none => writeLength b s
      | some len => writeOperand len b s
    | .executing => setPerr s
    | .replying => setPerr s

/-- Data writes of the bytes in order. -/
def dataWrites : List Byte → State → State
  | [], s => s
  | b :: rest, s => dataWrites rest (dataWrite b s)

/-- The port accepts the first byte of a message: READY with PERR clear (R146). -/
def portReady (s : State) : Bool := decide (s.port.phase = .ready) && !s.port.perr

/-- The whole message of a command written on the data path, byte after byte: in READY with PERR clear it completes and runs
the command; otherwise each byte is taken by the phase it finds (R146; log 12). -/
def command (code : Byte) (ops : List Byte) (body : List Byte → State → Result) (s : State) : State :=
  let message := code :: BitVec.ofNat 8 ops.length :: ops
  if portReady s && operandsFit ops then execute message (body ops) s else dataWrites message s

/-! ## Data reads and the port reset (R149, R151) -/

/-- A read on the data path by the phase it finds (R149, R150). With the reply buffer emptied the read position is 0 (DESIGN
CHOICE, log 30, unsafe): the rules give it again only at the next placement. -/
def dataRead (s : State) : State :=
  match s.port.phase with
  | .replying =>
    let b := s.port.reply.getD s.port.pos 0
    if s.port.reply.length ≤ s.port.pos + 1 then
      setPort { s.port with phase := .ready, reply := [], pos := 0, readData := some b } s
    else setPort { s.port with pos := s.port.pos + 1, readData := some b } s
  | .filling =>
    setPort { s.port with phase := .ready, buf := [], len := none, perr := true, readData := some 0 } s
  | .ready => setPort { s.port with perr := true, readData := some 0 } s
  | .executing => setPort { s.port with perr := true, readData := some 0 } s

/-- A write on the status path: the port reset by the phase it finds (R151). It leaves the buffers emptied, in EXECUTING too,
where the command goes on (R152, R156); in READY they are empty. -/
def portReset (s : State) : State :=
  match s.port.phase with
  | .ready => setPort { s.port with perr := false } s
  | .filling => setPort { emptyBuffers s.port with phase := .ready, perr := false } s
  | .executing => setPort { emptyBuffers s.port with perr := false, discard := true } s
  | .replying => setPort { emptyBuffers s.port with phase := .ready, perr := false } s

end Sys2Proof.Machine
end

