-- ==== Sys2Proof/Machine/HostArms.lean ====
section
/-! DEFINITION. The meanings of the host's accesses and commands, and of the hardware reset, one per constructor. -/

namespace Sys2Proof.Machine

/-- What a meaning answers. -/
abbrev Answered := Host.Outcome State Fault Refusal

/-- HARDWARE_RESET (R201): every block in its hardware-reset condition; the queue of waiting commands is not the part's. -/
def execHardwareReset (inputs : Word) (s : State) : Answered :=
  .next (setPending s.pending (State.resetWith inputs))

/-- HOST_DATA_WRITE (R146); a byte that completes a message runs its command. -/
def execHostDataWrite (b : Byte) (s : State) : Answered := .next (dataWrite b s)

/-- DATA_READ (R149). -/
def execDataRead (s : State) : Answered := .next (dataRead s)

/-- PORT_RESET (R151): the byte written is not used. -/
def execPortReset (_b : Byte) (s : State) : Answered := .next (portReset s)

/-- BAD_COMMAND (R147): the message of a code that names no command; its operands are not looked at. -/
def execBadCommand (code : Byte) (ops : List Byte) (s : State) : Answered :=
  .next (command code ops (fun ops => bodyOf (decodeMessage code ops)) s)

/-- SET_STATION (R158). -/
def execSetStation (ops : List Byte) (s : State) : Answered := .next (command 0x10 ops cmdSetStation s)

/-- SET_ENTRY (R160). -/
def execSetEntry (ops : List Byte) (s : State) : Answered := .next (command 0x11 ops cmdSetEntry s)

/-- CLEAR_ENTRY (R161). -/
def execClearEntry (ops : List Byte) (s : State) : Answered := .next (command 0x12 ops cmdClearEntry s)

/-- SET_CONDITION (R162). -/
def execSetCondition (ops : List Byte) (s : State) : Answered := .next (command 0x13 ops cmdSetCondition s)

/-- CLEAR_CONDITION (R164). -/
def execClearCondition (ops : List Byte) (s : State) : Answered := .next (command 0x14 ops cmdClearCondition s)

/-- SET_OUTPUT (R165). -/
def execSetOutput (ops : List Byte) (s : State) : Answered := .next (command 0x15 ops cmdSetOutput s)

/-- CLEAR_OUTPUT (R166). -/
def execClearOutput (ops : List Byte) (s : State) : Answered := .next (command 0x16 ops cmdClearOutput s)

/-- SET_PERMIT (R167). -/
def execSetPermit (ops : List Byte) (s : State) : Answered := .next (command 0x17 ops cmdSetPermit s)

/-- COMMIT (R169, R175). -/
def execCommit (ops : List Byte) (s : State) : Answered := .next (command 0x18 ops cmdCommit s)

/-- READ_CONFIG (R168). -/
def execReadConfig (ops : List Byte) (s : State) : Answered := .next (command 0x20 ops cmdReadConfig s)

/-- GET_STATUS (R182). -/
def execGetStatus (ops : List Byte) (s : State) : Answered := .next (command 0x21 ops cmdGetStatus s)

/-- READ_PARAMETER (R126). -/
def execReadParameter (ops : List Byte) (s : State) : Answered := .next (command 0x22 ops cmdReadParameter s)

/-- WRITE_PARAMETER (R127). -/
def execWriteParameter (ops : List Byte) (s : State) : Answered := .next (command 0x23 ops cmdWriteParameter s)

/-- CLEAR_COUNTERS (R184). -/
def execClearCounters (ops : List Byte) (s : State) : Answered := .next (command 0x24 ops cmdClearCounters s)

/-- TAKE_EVENT (R192). -/
def execTakeEvent (ops : List Byte) (s : State) : Answered := .next (command 0x25 ops cmdTakeEvent s)

/-- RECONFIGURE (R36). -/
def execReconfigure (ops : List Byte) (s : State) : Answered := .next (command 0x30 ops cmdReconfigure s)

/-- RESTART (R35). -/
def execRestart (ops : List Byte) (s : State) : Answered := .next (command 0x31 ops cmdRestart s)

/-- HOLD (R38). -/
def execHold (ops : List Byte) (s : State) : Answered := .next (command 0x32 ops cmdHold s)

/-- RESUME (R38). -/
def execResume (ops : List Byte) (s : State) : Answered := .next (command 0x33 ops cmdResume s)

/-- WRITE_POINT (R52). -/
def execWritePoint (ops : List Byte) (s : State) : Answered := .next (command 0x40 ops cmdWritePoint s)

/-- READ_POINTS (R53). -/
def execReadPoints (ops : List Byte) (s : State) : Answered := .next (command 0x41 ops cmdReadPoints s)

/-- READ_ENTRY (R77). -/
def execReadEntry (ops : List Byte) (s : State) : Answered := .next (command 0x42 ops cmdReadEntry s)

/-- READ_CONDITIONS (R100). -/
def execReadConditions (ops : List Byte) (s : State) : Answered := .next (command 0x43 ops cmdReadConditions s)

/-- READ_OUTPUTS (R119). -/
def execReadOutputs (ops : List Byte) (s : State) : Answered := .next (command 0x44 ops cmdReadOutputs s)

/-- SET_OUTPUTS (R115). -/
def execSetOutputs (ops : List Byte) (s : State) : Answered := .next (command 0x45 ops cmdSetOutputs s)

/-- UNLATCH (R116). -/
def execUnlatch (ops : List Byte) (s : State) : Answered := .next (command 0x46 ops cmdUnlatch s)

/-- QUERY (R130). -/
def execQuery (ops : List Byte) (s : State) : Answered := .next (command 0x47 ops cmdQuery s)

/-- TAKE_ANSWER (R138). -/
def execTakeAnswer (ops : List Byte) (s : State) : Answered := .next (command 0x48 ops cmdTakeAnswer s)

/-- HELD_COMMAND_RELEASE (R37): once no own frame is in transmission, the held command is made and its reply placed. -/
def execHeldCommandRelease (s : State) : Answered :=
  match s.ctl.held with
  | some c =>
    .next (if txSending s then s
      else endExecution ⟨.ok, []⟩ (makeHeld c (setCtl { s.ctl with held := none } s)))
  | none => .next s

end Sys2Proof.Machine
end

