-- ==== Sys2Proof/Machine/LineArms.lean ====
section
/-! DEFINITION. The meanings of the line's events: receptions, slots, the own frames and the opening contention (01). -/

namespace Sys2Proof.Machine

/-! ## Receptions -/

/-- Load the cold-start timer in LISTEN, less the silence already past (R13). -/
def loadColdStart (elapsed : Nat) (s : State) : State :=
  if s.ctl.state = .listen then
    setLine { s.line with coldStart := some (s.coldStartWait - elapsed) } s
  else s

/-- Count a judged reception: word 18 if valid, word 19 if not (R4). -/
def countReception (valid : Bool) (s : State) : State :=
  let c := s.par.counters
  setCounters (if valid then { c with validFrames := satInc c.validFrames }
    else { c with invalidFrames := satInc c.invalidFrames }) s

/-- Count a foreign OPEN in word 25 (R5). -/
def countForeign (s : State) : State :=
  setCounters { s.par.counters with foreignOpens := satInc s.par.counters.foreignOpens } s

/-- Count a round mismatch in word 22 (R11, R19). -/
def countMismatch (s : State) : State :=
  setCounters { s.par.counters with mismatches := satInc s.par.counters.mismatches } s

/-- A valid OPEN is matching when its signature and its slot count equal the own; otherwise foreign (R5). -/
def matching (s : State) (f : OpenFrame) : Bool :=
  decide (f.signature = s.ctl.signature) && decide (f.slots = s.settings.slots)

/-- A frame applied from a peer at the station controller: the heard mark set, the lone counter 0, LONE cleared (R39). -/
def heardPeer (s : State) : State :=
  setHolds { s.ctl.holds with lone := false } (setCtl { s.ctl with heard := true, loneCounter := 0 } s)

/-- The query item of a delivered frame, if it is for this station (R8). -/
def deliverQuery (f : SlotFrame) (s : State) : State :=
  match f.query with
  | some q => if q.target.toNat = s.address then serveQueryItem f.sender q s else s
  | none => s

/-- The answer item of a delivered frame, if it is for this station (R8). -/
def deliverAnswer (f : SlotFrame) (s : State) : State :=
  match f.answer with
  | some a => if a.requester.toNat = s.address then takeAnswerItem f.sender a s else s
  | none => s

/-- One delivery (R8): the mirror table, the station controller, the query unit. The rules give no order among them; the model
takes them in this one (log 9). -/
def deliver (f : SlotFrame) (s : State) : State := deliverAnswer f (deliverQuery f (heardPeer (applyFrame f s)))

/-- The slot checks of a valid SLOT frame while slot `k` is expected (R19). -/
def slotCheck (k : Nat) (f : SlotFrame) (s : State) : State :=
  let j := f.sender.toNat
  if j = s.address then duplicateAddress s
  else if s.slots ≤ j then endSlot k 0 none (countMismatch s)
  else if j < k then syncLoss .syncLoss 0 s
  else if f.round ≠ s.line.round then endSlot k 0 none (countMismatch s)
  else if k < j then
    endSlot j 0 none (deliver f (setCounters { s.par.counters with slips := satInc s.par.counters.slips }
      (setLine { s.line with slot := some j } s)))
  else endSlot k 0 none (deliver f s)

/-- A matching OPEN in the SLOTS phase cuts the round: its close is announced under the old number, word 31 advances, then the
new round starts (R14). -/
def cutRound (round : Byte) (s : State) : State :=
  let s1 := announceClose s
  let s2 := setCounters { s1.par.counters with roundCuts := satInc s1.par.counters.roundCuts } s1
  startSlot 0 0 none (setLine { s2.line with round := round } s2)

/-- A valid OPEN while SYNCED (R11, R14, R30). -/
def openInSynced (f : OpenFrame) (s : State) : State :=
  if matching s f then
    if s.line.phase = .slots then cutRound f.round s
    else startSlot 0 0 none (setLine { s.line with round := f.round } s)
  else syncLoss .foreign 1 (countForeign s)

/-- A valid SLOT frame while SYNCED, by the phase (R11, R19). -/
def slotInSynced (f : SlotFrame) (s : State) : State :=
  match s.line.phase, s.line.slot with
  | .slots, some k => slotCheck k f s
  | _, _ =>
    if f.sender.toNat = s.address then duplicateAddress s
    else loadContention 0 (countMismatch s)

/-- An invalid reception while SYNCED: it ends its slot, or the contention restarts (R7, R11). -/
def invalidInSynced (elapsed : Nat) (picture : Option SlotPicture) (s : State) : State :=
  match s.line.phase, s.line.slot with
  | .slots, some k => endSlot k elapsed picture s
  | _, _ => loadContention elapsed s

/-- A valid frame in LISTEN (R20). -/
def frameInListen (frame : Frame) (s : State) : State :=
  match frame with
  | .opening f =>
    if matching s f then join f.round s
    else foreignReached (loadColdStart 0
      (countForeign (setLine { s.line with foreignCount := s.line.foreignCount + 1 } s)))
  | .slot f => if f.sender.toNat = s.address then duplicateAddress s else loadColdStart 0 s

/-- A valid frame in FAULT: counted only, a foreign OPEN in word 25 too (R20). -/
def frameInFault (frame : Frame) (s : State) : State :=
  match frame with
  | .opening f => if matching s f then s else countForeign s
  | .slot _ => s

/-- A judged and counted reception is acted on by its kind and the station state (R4). -/
def actOnReception (frame : Option Frame) (elapsed : Nat) (picture : Option SlotPicture) (s : State) : State :=
  match s.ctl.state with
  | .config => s
  | .listen => match frame with
    | some f => frameInListen f s
    | none => loadColdStart elapsed s
  | .synced => match frame with
    | some (.opening f) => openInSynced f s
    | some (.slot f) => slotInSynced f s
    | none => invalidInSynced elapsed picture s
  | .fault => match frame with
    | some f => frameInFault f s
    | none => s

/-- The silence already past when the end of a reception is recognised: none at a declared end, else a CT (R3; log 25). -/
def silencePast (chars : List RxChar) (s : State) : Nat := if reachedEnd chars then 0 else s.ct

/-- What the own frame would have carried at the end of the reception's last character, where that end is recognised a CT later:
the oldest picture (R3, R15, R54; log 32). -/
def pictureAtEnd (chars : List RxChar) (s : State) : Option SlotPicture :=
  if reachedEnd chars then none else s.line.pictures.getLast?

/-- RECEPTION_END (R3, R4): the end of a reception is judged, counted and acted on. The end of an activity that is not received
only reloads the cold-start timer (R13, R21, R175); with none in progress nothing ends (log 5). -/
def execReceptionEnd (chars : List RxChar) (s : State) : Answered :=
  match s.line.rx with
  | .idle => .next s
  | .ignoring => .next (loadColdStart s.ct (setLine { s.line with rx := .idle } s))
  | .receiving =>
    let s1 := setLine { s.line with rx := .idle, rxFrame := storedChars chars, pictures := [] } s
    .next (if s.ctl.state = .config then s1
      else actOnReception (judge chars) (silencePast chars s) (pictureAtEnd chars s)
        (countReception (judge chars).isSome s1))

/-- START_BIT (R3): a reception begins; it occupies the slot, stops the contention and cold-start timers, and a frame still in
its frame gap is not sent (R7, R11, R13, R15). In a slot the first picture is taken (R54; log 32). In CONFIG and
while a collided frame's activity lasts it is not received (R16, R21). -/
def execStartBit (s : State) : Answered :=
  .next (match s.line.rx, s.line.tx with
    | .idle, .sending _ => s
    | .idle, .collided _ => s
    | .idle, _ =>
      if s.line.phase = .off then setLine { s.line with rx := .ignoring } s
      else setLine { (clearTx .idle s.line) with
        rx := .receiving, contention := none, coldStart := none, slotTimer := none
        pictures := if s.line.phase = .slots then [slotPicture s] else [] } s
    | _, _ => s)

/-- FOREIGN_LIMIT (R28): in LISTEN with the foreign count at its limit the station enters FAULT(SIGNATURE). The third foreign
OPEN's own RECEPTION_END takes this step already (log 6). -/
def execForeignLimit (s : State) : Answered :=
  .next (if s.ctl.state = .listen then foreignReached s else s)

/-! ## Slots and own frames -/

/-- Own transmissions may begin: nothing on the line, and no report or held command waits for the transmitter's stop (R37; log 7). -/
def mayBegin (s : State) : Bool :=
  decide (s.line.rx = .idle) && s.ctl.held.isNone && !s.line.dupReport && !s.line.driverReport

/-- SKIP_POINT (R7): no start bit within 4 CT of the slot start point; the slot ends. -/
def execSkipPoint (s : State) : Answered :=
  .next (if s.ctl.state = .synced ∧ s.line.phase = .slots ∧ s.line.slotTimer.isSome = true ∧ s.line.rx = .idle ∧
      s.line.tx = .idle then endCurrentSlot 0 s else s)

/-- TRANSMISSION_START (R15): the gathered SLOT frame's first character begins, LDE goes active. -/
def execTransmissionStart (s : State) : Answered :=
  .next (if s.ctl.state = .synced ∧ s.line.tx = .gap ∧ mayBegin s = true then
      setLine { s.line with tx := .sending .slotFrame, gapTimer := none } s else s)

/-- The own SLOT frame has completed: its query is SENT and its answer removed (R18, R134, R140). -/
def consumeItems (s : State) : State :=
  let s1 := match s.line.txQuery with
    | some tag => markSent tag s
    | none => s
  if s.line.txAnswer then removeAnswer s1 else s1

/-- Both runs cleared and the transmit frame let go (R18). -/
def txDone (s : State) : State :=
  setLine { (clearTx .idle s.line) with collisionRun := 0, driverRun := 0 } s

/-- The own OPEN has completed: the new round begins, word 21 advances (R12). -/
def openCompleted (s : State) : State :=
  let s1 := setCounters { s.par.counters with roundsOpened := satInc s.par.counters.roundsOpened } s
  startSlot 0 0 none (setLine { s1.line with round := s1.line.round + 1 } s1)

/-- TRANSMISSION_COMPLETE (R18): the last CRC character of an own frame reads back equal. -/
def execTransmissionComplete (s : State) : Answered :=
  .next (match s.line.tx with
    | .sending .slotFrame => endCurrentSlot 0 (txDone (consumeItems s))
    | .sending .openFrame => openCompleted (txDone s)
    | _ => s)

/-- The report of the collision limit: taken at once, or left beside a held command, either of which may be taken first
(R18, R31, R37). -/
def reportDuplicate (s : State) : State :=
  if s.line.collisionRun < Config.collisionLimit then s
  else if s.ctl.held.isSome then setLine { s.line with dupReport := true } s
  else duplicateAddress s

/-- The report of the driver limit, in the same way (R18, R32, R37). -/
def reportDriver (s : State) : State :=
  if s.line.driverRun < Config.driverLimit then s
  else if s.ctl.held.isSome then setLine { s.line with driverReport := true } s
  else driverFaulted s

/-- The line unit after an own frame of a kind has collided (R16, R18). -/
def collidedLine (kind : FrameKind) (l : LineUnit) : LineUnit :=
  { (clearTx (.collided kind) l) with
    collisionRun := if l.collisionRun < Config.collisionLimit then l.collisionRun + 1 else l.collisionRun, driverRun := 0 }

/-- COLLISION (R16, R18): the own transmission stops, word 20 and the collision run advance; the items stay unconsumed. -/
def execCollision (s : State) : Answered :=
  .next (match s.line.tx with
    | .sending kind =>
      reportDuplicate (setCounters { s.par.counters with collisions := satInc s.par.counters.collisions }
        (setLine (collidedLine kind s.line) s))
    | _ => s)

/-- COLLISION_LIMIT (R18, R31): a waiting duplicate-address report reaches the station controller. -/
def execCollisionLimit (s : State) : Answered :=
  .next (if s.line.dupReport then duplicateAddress (setLine { s.line with dupReport := false } s) else s)

/-- The line unit after an own frame has ended in driver error (R17, R18). -/
def driverErrorLine (l : LineUnit) : LineUnit :=
  { (clearTx .idle l) with
    collisionRun := 0, driverRun := if l.driverRun < Config.driverLimit then l.driverRun + 1 else l.driverRun }

/-- DRIVER_ERROR (R17, R18): no start bit read back in the first character time. A SLOT frame's slot runs on to its skip point;
after an OPEN the contention restarts with the full wait (R12). -/
def execDriverError (s : State) : Answered :=
  .next (match s.line.tx with
    | .sending .slotFrame => reportDriver (setLine (driverErrorLine s.line) s)
    | .sending .openFrame => reportDriver (loadContention 0 (setLine (driverErrorLine s.line) s))
    | _ => s)

/-- DRIVER_FAULT (R18, R32): a waiting driver-fault report reaches the station controller. -/
def execDriverFault (s : State) : Answered :=
  .next (if s.line.driverReport then driverFaulted (setLine { s.line with driverReport := false } s) else s)

/-- The activity of a collided frame ends in the state the station then stands in (R12, R13, R16). -/
def collidedEnd (kind : FrameKind) (s : State) : State :=
  if s.ctl.state = .synced then
    match kind with
    | .slotFrame => endCurrentSlot s.ct s
    | .openFrame => loadContention s.ct s
  else loadColdStart s.ct s

/-- COLLIDED_FRAME_END (R16): the line activity after a collision ends, recognised after a CT of silence; it is not counted. -/
def execCollidedFrameEnd (s : State) : Answered :=
  .next (match s.line.tx with
    | .collided kind => collidedEnd kind (setLine { s.line with tx := .idle } s)
    | _ => s)

/-! ## The opening contention and the cold start -/

/-- CONTENTION_TIMEOUT (R10, R12): the contention timer runs out and the OPEN begins at once. -/
def execContentionTimeout (s : State) : Answered :=
  .next (if s.ctl.state = .synced ∧ s.line.phase = .contention ∧ s.line.contention.isSome = true ∧ s.line.tx = .idle ∧
      mayBegin s = true then beginOpen s else s)

/-- COLD_START (R13, R27): the cold-start timer runs out in LISTEN. -/
def execColdStart (s : State) : Answered :=
  .next (if s.ctl.state = .listen ∧ s.line.coldStart.isSome = true ∧ s.line.tx = .idle ∧ mayBegin s = true then
      coldStarted s else s)

end Sys2Proof.Machine
end

