-- ==== Sys2Proof/Machine/TimerArms.lean ====
section
/-! DEFINITION. The meanings of the round's consequences, the age-step timer, the inputs, the condition passes and the
millisecond timers (02 to 07). -/

namespace Sys2Proof.Machine

/-- ENTRY_STALE (R68): the entry of a place that has reached its age limit becomes STALE. The age step that brings the age to
the limit takes this step already (log 6). -/
def execEntryStale (place : Fin 64) (s : State) : Answered :=
  .next (if s.ctl.state = .config then s else staleEntryAt place.val s)

/-- QUERY_TIMEOUT (R135): SENT queries whose rounds waited have reached Q become DONE with outcome TIMEOUT. The round close
takes this step already (log 6). -/
def execQueryTimeout (s : State) : Answered := .next (if s.ctl.state = .synced then takeTimeouts s else s)

/-- LONE (R39): the lone counter at the lone limit sets LONE. The round close takes this step already (log 6). -/
def execLone (s : State) : Answered := .next (if s.ctl.state = .synced then loneReached s else s)

/-- AGE_STEP_TIMER (R41): in LISTEN or FAULT the timer runs out: one age step, and the timer is loaded again. -/
def execAgeStepTimer (s : State) : Answered :=
  .next (if (s.ctl.state = .listen ∨ s.ctl.state = .fault) ∧ s.ctl.ageTimer.isSome = true then
      ageStep (setCtl { s.ctl with ageTimer := some s.agePeriod } s) else s)

/-! ## Input lines (R45, R46) -/

/-- Replace the filter timer of a line. -/
def setFilterTimer (i : Nat) (t : Timer) (s : State) : State :=
  setPts { s.pts with filterTimers := s.pts.filterTimers.set i t } s

/-- A changed raw level of a line against its filtered level, its timer and F (R45). -/
def inputChanged (i : Nat) (level : Bool) (s : State) : State :=
  if level = bitOf s.pts.filtered i then setFilterTimer i .idle s
  else if isRunning (timerAt s.pts.filterTimers i) then s
  else if s.pts.filterTime = 0 then
    formPoint0 (setPts { s.pts with filtered := putBit s.pts.filtered i level } s)
  else setFilterTimer i (startTimer level s.pts.filterTime.toNat s) s

/-- INPUT_CHANGE (R45): a level the line already has is no change (DESIGN CHOICE, log 5). -/
def execInputChange (line : Fin 16) (level : Bool) (s : State) : Answered :=
  .next (if level = bitOf s.pts.raw line.val then s
    else inputChanged line.val level (setPts { s.pts with raw := putBit s.pts.raw line.val level } s))

/-- A filter timer of a line runs out: the filtered level takes the level it ran towards (R45). -/
def expireFilter (i : Nat) (p : PointUnit) : PointUnit :=
  match timerAt p.filterTimers i with
  | .running b _ => { p with filtered := putBit p.filtered i b, filterTimers := p.filterTimers.set i .idle }
  | .idle => p

/-- The running filter timers of the lines of a mask run out, ascending. -/
def expireFilters (lines : Word) : List Nat → PointUnit → PointUnit
  | [], p => p
  | i :: rest, p => expireFilters lines rest (if bitOf lines i then expireFilter i p else p)

/-- FILTER_EXPIRY (R46): filter timers that run out at one tick change together and point 0 changes once; an idle timer's
expiry does not happen (R45). -/
def execFilterExpiry (lines : Word) (s : State) : Answered :=
  .next (formPoint0 (setPts (expireFilters lines (List.range 16) s.pts) s))

/-! ## Conditions and outputs -/

/-- CONDITION_PASS (R88): the oldest held notice is taken as a pass. -/
def execConditionPass (s : State) : Answered := .next (takeNotice s)

/-- CONFIRM_EXPIRY (R94): a running confirm timer expires; an idle one's expiry does not happen. -/
def execConfirmExpiry (k : Fin 16) (s : State) : Answered := .next (expireConfirm k.val s)

/-- PULSE_EXPIRY (R108): a running pulse timer expires; an idle one's expiry does not happen. -/
def execPulseExpiry (i : Fin 16) (s : State) : Answered := .next (expirePulse i.val s)

end Sys2Proof.Machine
end

