-- ==== Sys2Proof/Machine/Dispatch.lean ====
section
/-! DEFINITION. exec: one arm per command. -/

namespace Sys2Proof.Machine

/-- The effect of a command on everything but the queue of waiting commands. -/
def exec (i : Instr) (s : State) : Host.Outcome State Fault Refusal :=
  match i with
  | .hardwareReset inputs => Sys2Proof.Machine.execHardwareReset inputs s
  | .hostDataWrite byte => Sys2Proof.Machine.execHostDataWrite byte s
  | .dataRead => Sys2Proof.Machine.execDataRead s
  | .portReset byte => Sys2Proof.Machine.execPortReset byte s
  | .badCommand code operands => Sys2Proof.Machine.execBadCommand code operands s
  | .setStation operands => Sys2Proof.Machine.execSetStation operands s
  | .setEntry operands => Sys2Proof.Machine.execSetEntry operands s
  | .clearEntry operands => Sys2Proof.Machine.execClearEntry operands s
  | .setCondition operands => Sys2Proof.Machine.execSetCondition operands s
  | .clearCondition operands => Sys2Proof.Machine.execClearCondition operands s
  | .setOutput operands => Sys2Proof.Machine.execSetOutput operands s
  | .clearOutput operands => Sys2Proof.Machine.execClearOutput operands s
  | .setPermit operands => Sys2Proof.Machine.execSetPermit operands s
  | .commit operands => Sys2Proof.Machine.execCommit operands s
  | .readConfig operands => Sys2Proof.Machine.execReadConfig operands s
  | .getStatus operands => Sys2Proof.Machine.execGetStatus operands s
  | .readParameter operands => Sys2Proof.Machine.execReadParameter operands s
  | .writeParameter operands => Sys2Proof.Machine.execWriteParameter operands s
  | .clearCounters operands => Sys2Proof.Machine.execClearCounters operands s
  | .takeEvent operands => Sys2Proof.Machine.execTakeEvent operands s
  | .reconfigure operands => Sys2Proof.Machine.execReconfigure operands s
  | .restart operands => Sys2Proof.Machine.execRestart operands s
  | .hold operands => Sys2Proof.Machine.execHold operands s
  | .resume operands => Sys2Proof.Machine.execResume operands s
  | .writePoint operands => Sys2Proof.Machine.execWritePoint operands s
  | .readPoints operands => Sys2Proof.Machine.execReadPoints operands s
  | .readEntry operands => Sys2Proof.Machine.execReadEntry operands s
  | .readConditions operands => Sys2Proof.Machine.execReadConditions operands s
  | .readOutputs operands => Sys2Proof.Machine.execReadOutputs operands s
  | .setOutputs operands => Sys2Proof.Machine.execSetOutputs operands s
  | .unlatch operands => Sys2Proof.Machine.execUnlatch operands s
  | .query operands => Sys2Proof.Machine.execQuery operands s
  | .takeAnswer operands => Sys2Proof.Machine.execTakeAnswer operands s
  | .heldCommandRelease => Sys2Proof.Machine.execHeldCommandRelease s
  | .receptionEnd chars => Sys2Proof.Machine.execReceptionEnd chars s
  | .foreignLimit => Sys2Proof.Machine.execForeignLimit s
  | .skipPoint => Sys2Proof.Machine.execSkipPoint s
  | .entryStale place => Sys2Proof.Machine.execEntryStale place s
  | .queryTimeout => Sys2Proof.Machine.execQueryTimeout s
  | .lone => Sys2Proof.Machine.execLone s
  | .transmissionStart => Sys2Proof.Machine.execTransmissionStart s
  | .transmissionComplete => Sys2Proof.Machine.execTransmissionComplete s
  | .collision => Sys2Proof.Machine.execCollision s
  | .collisionLimit => Sys2Proof.Machine.execCollisionLimit s
  | .driverError => Sys2Proof.Machine.execDriverError s
  | .driverFault => Sys2Proof.Machine.execDriverFault s
  | .contentionTimeout => Sys2Proof.Machine.execContentionTimeout s
  | .coldStart => Sys2Proof.Machine.execColdStart s
  | .ageStepTimer => Sys2Proof.Machine.execAgeStepTimer s
  | .inputChange line level => Sys2Proof.Machine.execInputChange line level s
  | .filterExpiry lines => Sys2Proof.Machine.execFilterExpiry lines s
  | .conditionPass => Sys2Proof.Machine.execConditionPass s
  | .confirmExpiry condition => Sys2Proof.Machine.execConfirmExpiry condition s
  | .pulseExpiry line => Sys2Proof.Machine.execPulseExpiry line s
  | .startBit => Sys2Proof.Machine.execStartBit s
  | .collidedFrameEnd => Sys2Proof.Machine.execCollidedFrameEnd s

end Sys2Proof.Machine
end

