-- ==== Sys2Proof/Machine/Clock.lean ====
section
/-! DEFINITION. The station's own time: what a unit of time does to the timers, and which of the station's own events is due. -/

namespace Sys2Proof.Machine

/-! ## The passing of a unit of time (R1, R10, R13, R41) -/

/-- A line timer runs down; at 0 it is due. -/
def runDown : Option Nat → Option Nat
  | some n => some (n - 1)
  | none => none

/-- A timer that runs down only while no character is in progress (R10, R13). -/
def runDownIf (quiet : Bool) (t : Option Nat) : Option Nat := if quiet then runDown t else t

/-- A millisecond timer at a timebase tick. -/
def tickTimer : Timer → Timer
  | .running b n => .running b (n - 1)
  | .idle => .idle

/-- No character is in progress: nothing is received, sent or followed to its end (R2). -/
def lineQuiet (l : LineUnit) : Bool := decide (l.rx = .idle) && decide (l.tx = .idle ∨ l.tx = .gap)

/-- The pictures of the last CT as a unit of time is left; none are held outside a reception in a slot (log 32). -/
def tickPictures (s : State) : List SlotPicture :=
  if s.line.pictures = [] then [] else (slotPicture s :: s.line.pictures).take s.ct

/-- The line unit's timers after a unit of time. -/
def tickLine (l : LineUnit) : LineUnit :=
  { l with
    contention := runDownIf (lineQuiet l) l.contention
    coldStart := runDownIf (lineQuiet l) l.coldStart
    slotTimer := runDown l.slotTimer
    gapTimer := runDown l.gapTimer }

/-- The millisecond timers of the three blocks at a tick of the timebase (R1, R201). -/
def tickMs (s : State) : State :=
  setPts { s.pts with filterTimers := s.pts.filterTimers.map tickTimer }
    (setCond { s.cond with timers := s.cond.timers.map tickTimer }
      (setOut { s.out with pulse := s.out.pulse.map tickTimer } s))

/-- A unit of time passes: the line timers and the age-step timer run down, and every 100th unit is a tick of the timebase
(R201; log 3). -/
def tick (s : State) : State :=
  let s1 := setLine { (tickLine s.line) with pictures := tickPictures s }
    (setCtl { s.ctl with ageTimer := runDown s.ctl.ageTimer } s)
  if s.time.phase + 1 < Config.unitsPerMs then setTime ⟨s.time.phase + 1⟩ s1
  else tickMs (setTime ⟨0⟩ s1)

/-! ## Due events -/

/-- A millisecond timer is due. -/
def isDue : Timer → Bool
  | .running _ n => n == 0
  | .idle => false

/-- The first of the 16 timers that is due. -/
def firstDue (ts : List Timer) : Option (Fin 16) := (List.finRange 16).find? fun i => isDue (timerAt ts i.val)

/-- The lines whose filter timer is due. -/
def dueMask (ts : List Timer) : Word := wordOf fun i => isDue (timerAt ts i)

/-- The line unit's event that is due, if any. -/
def dueLine (s : State) : Option Instr :=
  if s.ctl.state = .synced ∧ s.line.tx = .gap ∧ s.line.gapTimer = some 0 ∧ mayBegin s = true then some .transmissionStart
  else if s.ctl.state = .synced ∧ s.line.phase = .slots ∧ s.line.slotTimer = some 0 ∧ s.line.rx = .idle ∧
      s.line.tx = .idle then some .skipPoint
  else if s.ctl.state = .synced ∧ s.line.phase = .contention ∧ s.line.contention = some 0 ∧ s.line.tx = .idle ∧
      mayBegin s = true then some .contentionTimeout
  else if s.ctl.state = .listen ∧ s.line.coldStart = some 0 ∧ s.line.tx = .idle ∧ mayBegin s = true then some .coldStart
  else none

/-- The expiry that is due, if any. -/
def dueExpiry (s : State) : Option Instr :=
  if (s.ctl.state = .listen ∨ s.ctl.state = .fault) ∧ s.ctl.ageTimer = some 0 then some .ageStepTimer
  else if dueMask s.pts.filterTimers ≠ 0 then some (.filterExpiry (dueMask s.pts.filterTimers))
  else match firstDue s.cond.timers with
    | some k => some (.confirmExpiry k)
    | none => match firstDue s.out.pulse with
      | some i => some (.pulseExpiry i)
      | none => none

/-- The station's own event that is to be taken before time passes: a held notice, a waiting report, a held command whose
frame has ended, then a timer that has run out. The rules give no order among events that fall together; this one is the
model's (log 2). -/
def dueCommand (s : State) : Option Instr :=
  if s.ctl.state ≠ .config ∧ s.cond.notices ≠ [] then some .conditionPass
  else if s.line.dupReport then some .collisionLimit
  else if s.line.driverReport then some .driverFault
  else if s.ctl.held.isSome = true ∧ txSending s = false then some .heldCommandRelease
  else match dueLine s with
    | some c => some c
    | none => dueExpiry s

end Sys2Proof.Machine
end

