-- ==== Sys2Proof/Machine/Step.lean ====
section
/-! DEFINITION. One step: the command at the front of the queue, or the block's own time on an empty queue. -/

namespace Sys2Proof.Machine

/-- One step: the command at the front of the queue is taken and executed with the queue's rest; on an empty queue the station
takes a due event of its own or lets a unit of time pass (logs 1 and 2). -/
def step (s : State) : Host.Outcome State Fault Refusal :=
  match s.pending with
  | c :: rest => exec c { s with pending := rest }
  | [] => match dueCommand s with
    | some c => exec c s
    | none => .next (tick s)

/-- The state with the command that a word spells put at the front of the queue; the same state where it spells none. -/
def State.withFetchWord (s : State) (nbits w : Nat) : State :=
  match decodeTableWord nbits w with
  | some c => { s with pending := c :: s.pending }
  | none => s

end Sys2Proof.Machine
end

