-- ==== Sys2Proof/Safety.lean ====
section
/-! DEFINITION. What counts as a sound station, block by block, and the words the statements use: a free port, a placed reply,
well-formed frames. Each predicate is kept by every step; the rule that says so is named with it. -/

namespace Sys2Proof.Machine

/-! ## Words of the statements -/

/-- The port takes a whole message: READY, PERR clear, no reply to discard (R146, R148). -/
def PortFree (s : State) : Prop := s.port.phase = .ready ∧ s.port.perr = false ∧ s.port.discard = false

/-- The state with a reply placed and unread (R148). -/
def withReply (st : Status) (data : List Byte) (s : State) : State :=
  { s with port := { s.port with
      phase := .replying, buf := [], len := none, pos := 0,
      reply := statusCode st :: BitVec.ofNat 8 data.length :: data } }

/-- The run-time and station commands are accepted: LISTEN, SYNCED or FAULT (R177). -/
def Running (s : State) : Prop := s.ctl.state ≠ .config

/-- A query item as Fig. 19 can carry it. -/
def QueryItem.fits (q : QueryItem) : Prop := q.target.toNat < 32 ∧ q.index.toNat < 32 ∧ (q.write = false → q.value = 0)

/-- An answer item as Fig. 19 can carry it: an outcome that travels, or the code that names none (R6, R136). -/
def AnswerItem.fits (a : AnswerItem) : Prop :=
  a.requester.toNat < 32 ∧ a.outcome ≠ some .timeout ∧ a.outcome ≠ some .aborted

/-- A SLOT frame as Fig. 17 can carry it. -/
def SlotFrame.fits (f : SlotFrame) : Prop :=
  f.sender.toNat < 32 ∧ 1 ≤ f.points.length ∧ f.points.length ≤ 8 ∧ (∀ q, f.query = some q → q.fits) ∧
    (∀ a, f.answer = some a → a.fits)

/-- The operand counts each code byte admits (Fig. 21, R178). -/
def commandForms : List (Byte × List Nat) :=
  [(0x10, [11]), (0x11, [5]), (0x12, [1]), (0x13, [12, 17, 22, 27]), (0x14, [1]), (0x15, [5]), (0x16, [1]), (0x17, [2]),
   (0x18, [0]), (0x20, [2]), (0x21, [0]), (0x22, [1]), (0x23, [3]), (0x24, [0]), (0x25, [0]), (0x30, [0]), (0x31, [0]),
   (0x32, [0]), (0x33, [0]), (0x40, [4]), (0x41, [0]), (0x42, [1]), (0x43, [0]), (0x44, [0]), (0x45, [4]), (0x46, [2]),
   (0x47, [5]), (0x48, [1])]

/-- The codes of the commands accepted in CONFIG only (R157, R177). -/
def configCodes : List Byte := [0x10, 0x11, 0x12, 0x13, 0x14, 0x15, 0x16, 0x17, 0x18]

/-- The codes of the commands accepted in LISTEN, SYNCED and FAULT only (R177). -/
def runningCodes : List Byte :=
  [0x30, 0x31, 0x32, 0x33, 0x40, 0x41, 0x42, 0x43, 0x44, 0x45, 0x46, 0x47, 0x48]

/-- A command that is the host's doing or the hardware reset: an access, a message, a held command made. -/
def hostAct (c : Instr) : Bool :=
  match c with
  | .hardwareReset _ => true
  | .hostDataWrite _ => true
  | .dataRead => true
  | .portReset _ => true
  | .heldCommandRelease => true
  | other => (messageOf other).isSome

/-! ## The station's own events (R1, R2; logs 2 and 3) -/

/-- A millisecond timer has run out (R1). -/
abbrev RunOut (t : Timer) : Prop := t = .running true 0 ∨ t = .running false 0

/-- Nothing on the line is received, and no held command and no report waits for the transmitter (R15, R37; log 7). -/
abbrev FreeToSend (s : State) : Prop :=
  s.line.rx = .idle ∧ s.ctl.held = none ∧ s.line.dupReport = false ∧ s.line.driverReport = false

/-- The station's own events, each with the condition on which it is due, in the order in which the model takes those that fall
together (R7, R10, R13, R15, R37, R41, R45, R88, R94, R108; the order is log 2). -/
def ownEvents (s : State) : List (Bool × Instr) :=
  let single : List (Bool × Instr) :=
    [(s.ctl.state ≠ .config ∧ s.cond.notices ≠ [], .conditionPass),
     (s.line.dupReport, .collisionLimit),
     (s.line.driverReport, .driverFault),
     (s.ctl.held ≠ none ∧ s.line.tx ≠ .sending .openFrame ∧ s.line.tx ≠ .sending .slotFrame, .heldCommandRelease),
     (s.ctl.state = .synced ∧ s.line.tx = .gap ∧ s.line.gapTimer = some 0 ∧ FreeToSend s, .transmissionStart),
     (s.ctl.state = .synced ∧ s.line.phase = .slots ∧ s.line.slotTimer = some 0 ∧ s.line.rx = .idle ∧ s.line.tx = .idle,
      .skipPoint),
     (s.ctl.state = .synced ∧ s.line.phase = .contention ∧ s.line.contention = some 0 ∧ s.line.tx = .idle ∧ FreeToSend s,
      .contentionTimeout),
     (s.ctl.state = .listen ∧ s.line.coldStart = some 0 ∧ s.line.tx = .idle ∧ FreeToSend s, .coldStart),
     ((s.ctl.state = .listen ∨ s.ctl.state = .fault) ∧ s.ctl.ageTimer = some 0, .ageStepTimer),
     (decide (∃ i : Fin 16, RunOut (timerAt s.pts.filterTimers i.val)),
      .filterExpiry (wordOf fun i => RunOut (timerAt s.pts.filterTimers i)))]
  single ++
    ((List.finRange 16).map fun k => (decide (RunOut (timerAt s.cond.timers k.val)), .confirmExpiry k)) ++
    ((List.finRange 16).map fun i => (decide (RunOut (timerAt s.out.pulse i.val)), .pulseExpiry i))

/-- The own event that is taken first among those that are due, if any is. -/
def firstDueEvent (s : State) : Option Instr := ((ownEvents s).find? fun e => e.1).map fun e => e.2

/-! ## A configuration that COMMIT accepts (R169 to R173) -/

/-- A term of condition `c` that may stand (R172). -/
def TermSound (s : State) (c : Nat) (t : Term) : Prop :=
  match t.ref with
  | .entry i => entryAt s.mir i.val ≠ none
  | .point p => p.val ≠ 1 ∧ (p.val = 2 → ∀ k, bitOf t.mask k = true → k < c ∧ condAt s.cond k ≠ none)

/-- The edited configuration passes every check of COMMIT. -/
structure Consistent (s : State) : Prop where
  /-- the station settings are set and the address is below S (R170) -/
  station : s.ctl.editedSet = true ∧ s.ctl.edited.address.toNat < s.ctl.edited.slots.toNat
  /-- no entry names the own address or one outside the round (R171) -/
  sources : ∀ i e, entryAt s.mir i = some e →
    e.source ≠ s.ctl.edited.address ∧ e.source.toNat < s.ctl.edited.slots.toNat
  /-- no two entries share source and point (R171) -/
  twins : ∀ i j e f, i < j → entryAt s.mir i = some e → entryAt s.mir j = some f → ¬(e.source = f.source ∧ e.point = f.point)
  /-- every condition counts some bit, and its terms may stand (R172) -/
  terms : ∀ c d, condAt s.cond c = some d → (∃ t ∈ d.terms, t.mask ≠ 0) ∧ ∀ t ∈ d.terms, TermSound s c t
  /-- every condition source is defined (R173) -/
  sourcesDefined : ∀ i r k, ruleAt s.out.edited i = some r → r.source = .cond k → condAt s.cond k.val ≠ none

/-! ## What COMMIT finds wrong (R169 to R173) -/

/-- The entry of place `i` fails step 3 with `x`: its source first, then a lower place with the same source and point (R171). -/
def EntryFails (s : State) (i : Nat) (x : Check) : Prop :=
  ∃ e, entryAt s.mir i = some e ∧
    ((x = .entrySource ∧ (e.source = s.ctl.edited.address ∨ s.ctl.edited.slots.toNat ≤ e.source.toNat)) ∨
      (x = .entryDuplicate ∧ ¬(e.source = s.ctl.edited.address ∨ s.ctl.edited.slots.toNat ≤ e.source.toNat) ∧
        ∃ j < i, ∃ f, entryAt s.mir j = some f ∧ f.source = e.source ∧ f.point = e.point))

/-- A term of condition `c` fails with `x` (R172). -/
def TermFails (s : State) (c : Nat) (t : Term) (x : Check) : Prop :=
  (x = .termEntry ∧ ∃ i, t.ref = .entry i ∧ entryAt s.mir i.val = none) ∨
    (x = .termOwnOutput ∧ t.ref = .point 1) ∨
    (x = .termOrder ∧ t.ref = .point 2 ∧ ∃ k, bitOf t.mask k = true ∧ (c ≤ k ∨ condAt s.cond k = none))

/-- Condition `c` fails step 4 with `x`: its first failing term, or with none failing EMPTY when every mask is 0000h (R172). -/
def ConditionFails (s : State) (c : Nat) (x : Check) : Prop :=
  ∃ d, condAt s.cond c = some d ∧
    ((∃ before t after, d.terms = before ++ t :: after ∧ (∀ u ∈ before, ∀ y, ¬TermFails s c u y) ∧ TermFails s c t x) ∨
      (x = .empty ∧ (∀ u ∈ d.terms, ∀ y, ¬TermFails s c u y) ∧ ∀ u ∈ d.terms, u.mask = 0))

/-- Line `i` fails step 5 with `x`: its source is a condition that is not defined (R173). -/
def OutputFails (s : State) (i : Nat) (x : Check) : Prop :=
  x = .outputSource ∧ ∃ r k, ruleAt s.out.edited i = some r ∧ r.source = .cond k ∧ condAt s.cond k.val = none

/-- The first failure of the five steps, each over its places in ascending order: the check `x` and the item `i` (R169). -/
def FirstFailure (s : State) (x : Check) (i : Nat) : Prop :=
  let entriesPass := ∀ j y, ¬EntryFails s j y
  let conditionsPass := ∀ j y, ¬ConditionFails s j y
  if s.ctl.editedSet = false then x = .noStation ∧ i = 0
  else if s.ctl.edited.slots.toNat ≤ s.ctl.edited.address.toNat then x = .address ∧ i = 0
  else (EntryFails s i x ∧ ∀ j < i, ∀ y, ¬EntryFails s j y) ∨
    (entriesPass ∧ ConditionFails s i x ∧ ∀ j < i, ∀ y, ¬ConditionFails s j y) ∨
    (entriesPass ∧ conditionsPass ∧ OutputFails s i x ∧ ∀ j < i, ∀ y, ¬OutputFails s j y)

/-! ## Pins, points and the drive mode (R40, R44, R112) -/

/-- The drive mode is the one the state and the hold reasons give, in every block; the pins show what it says; points 0, 1
and 2 follow the inputs, the pins and the drive mode. -/
def PinsSound (s : State) : Prop :=
  s.pts.points.length = 8 ∧
    s.ctl.driveMode = deriveMode s.ctl.state s.ctl.holds ∧ s.pts.driveMode = s.ctl.driveMode ∧
    s.out.mode = (if s.ctl.state = .config then .config else outModeOf s.ctl.driveMode) ∧
    s.out.pins = shownPins s.out ∧
    pointAt s 0 = ⟨s.pts.filtered ^^^ s.pts.invert, .good⟩ ∧ pointAt s 1 = ⟨s.out.pins, .good⟩ ∧
    (pointAt s 2).quality = qualityOf s.ctl.driveMode

/-! ## Records and notices -/

/-- Word 29 after records have been posted to a queue in order: each that finds 31 or more records held counts (R188, R189). -/
def lostAfter : List EventRec → Word → List EventRec → Word
  | _, w, [] => w
  | q, w, r :: rest => lostAfter (enqueue q r) (if q.length < 31 then w else satInc w) rest

/-- The records have been posted in order, and the parameter store has changed by word 29 only (R188, R189). -/
def Recorded (rs : List EventRec) (s t : State) : Prop :=
  t.evq = rs.foldl enqueue s.evq ∧
    t.par = { s.par with counters := { s.par.counters with
      lostRecords := lostAfter s.evq s.par.counters.lostRecords rs } }

/-- The ENTRY records of one update of the table by `g`: the reported entries whose status or NOT-OFFERED changes, in ascending
place order (R73, R200). -/
def entryRecords (g : Entry → Entry) (round : Byte) (m : List (Option Entry)) : List EventRec :=
  (List.range m.length).filterMap fun i =>
    match entryAt m i with
    | some e =>
      if e.report = true ∧ ((g e).status ≠ e.status ∨ (g e).notOffered ≠ e.notOffered) then
        some ⟨.entry, BitVec.ofNat 8 i, mkWord (entryCode (g e).status ||| flagAt (g e).notOffered 4) (entryCode e.status), round⟩
      else none
    | none => none

/-- The one notification that names the places of the entries with `p`, ascending; none when there is no such entry (R71). -/
def entryNotice (p : Entry → Bool) (m : List (Option Entry)) : List Notice :=
  let places := (List.range m.length).filter fun i => (entryAt m i).any p
  if places = [] then [] else [.entries places]

/-- The notification of an update by `g` that names the entries whose status changes (R70, R76). -/
def changedNotice (g : Entry → Entry) (m : List (Option Entry)) : List Notice :=
  entryNotice (fun e => decide ((g e).status ≠ e.status)) m

/-- The QUERY records of the queries with `p` that become DONE with an outcome, in issue order (R141). -/
def queryRecords (p : Query → Bool) (o : Outcome) (round : Byte) (queries : List Query) : List EventRec :=
  (queries.filter p).map fun q => ⟨.query, q.tag.setWidth 8, mkWord (outcomeCode o) q.target, round⟩

/-- The HOLD record of a change of the hold reasons; none when they stay (R43, R200). -/
def holdRecords (old new : HoldReasons) (round : Byte) : List EventRec :=
  if new = old then [] else [⟨.hold, holdByte new, mkWord 0 (holdByte old), round⟩]

/-- The LATCH records of a confirmed change of condition `k` to `b`: a rising edge sets the clear marks of its LATCH lines, one
record each in ascending line order (R107, R118, R200). -/
def latchRecords (k : Nat) (b : Bool) (o : OutUnit) (round : Byte) : List EventRec :=
  (List.range 16).filterMap fun i =>
    match ruleAt o.active i with
    | some ⟨.cond c, .latch, _, _⟩ =>
      if c.val = k ∧ b = true ∧ bitOf o.latched i = false then
        some ⟨.latch, BitVec.ofNat 8 i, mkWord (BitVec.ofNat 8 k) (if o.mode = .drive then 0 else 1), round⟩
      else none
    | _ => none

/-- The announcement of point 1 when the pins of `s` and `t` differ (R48, R56). -/
def pinNotice (s t : State) : List Notice := if t.out.pins = s.out.pins then [] else [.point 1]

/-- The drive mode of `t` has been taken from `s` by both blocks (R40, R48, R50, R112, R113): the pins show it, points 1 and 2
follow, and each changed point is announced once, after the notices named; point 1 first is the model's choice (log 29). -/
structure DriveTaken (named : List Notice) (s t : State) : Prop where
  mode : t.ctl.driveMode = deriveMode t.ctl.state t.ctl.holds
  out : t.out = { s.out with
    mode := outModeOf t.ctl.driveMode
    pins := if t.ctl.driveMode = .drive then ruleLevels s.out else safeLevels s.out.active }
  pts : t.pts = { s.pts with
    driveMode := t.ctl.driveMode
    points := (s.pts.points.set 1 ⟨t.out.pins, .good⟩).set 2 ⟨(pointAt s 2).value, qualityOf t.ctl.driveMode⟩ }
  cond : t.cond = { s.cond with notices := s.cond.notices ++ named ++ pinNotice s t ++
    if (pointAt s 2).quality = qualityOf t.ctl.driveMode then [] else [.point2Quality] }

/-- The output, point and condition units have taken no more than notices and a drive mode. -/
structure DriveOnly (s t : State) : Prop where
  out : t.out = { s.out with mode := t.out.mode, pins := t.out.pins }
  pts : t.pts = { s.pts with driveMode := t.pts.driveMode, points := t.pts.points }
  points : ∀ p, p ≠ 1 → p ≠ 2 → pointAt t p = pointAt s p
  cond : t.cond = { s.cond with notices := t.cond.notices } ∧ s.cond.notices <+: t.cond.notices

/-! ## Updates of an entry (R63 to R65, R68, R75, R76) -/

/-- An entry against a frame applied in a round: offered by its source it takes value and status and is fresh, not offered it
is marked; an entry of another source stays (R63 to R65). -/
def offeredEntry (f : SlotFrame) (round : Byte) (e : Entry) : Entry :=
  if e.source = f.sender then
    match f.points[e.point.toNat]? with
    | some p => { e with
        value := p.value, status := if p.quality = .good then .live else .held, age := 0, fresh := true
        notOffered := false, changed := e.changed || p.value != e.value, lastRound := round }
    | none => { e with notOffered := true }
  else e

/-- An entry after an age step: NEVER stays, a fresh one spends its mark, any other ages by one up to 15 and, LIVE or HELD, is
STALE at its age limit (R68). -/
def agedEntry (e : Entry) : Entry :=
  if e.status = .never then e
  else if e.fresh then { e with fresh := false }
  else { e with
    age := min (e.age + 1) 15
    status := if (e.status = .live ∨ e.status = .held) ∧ e.ageLimit.toNat ≤ min (e.age + 1) 15 then .stale else e.status }

/-- An entry after RESTART (R76). -/
def distrustedEntry (e : Entry) : Entry :=
  { e with
    fresh := false, notOffered := false
    status := if e.status = .live ∨ e.status = .held then .stale else e.status
    age := if e.status = .live ∨ e.status = .held then e.ageLimit.toNat else e.age }

/-- An entry with its runtime fields at their starting values (R58, R75). -/
def clearedEntry (e : Entry) : Entry :=
  { e with
    value := 0, status := .never, age := 0, fresh := false, notOffered := false, changed := false, lastRound := 0 }

/-! ## What the changes of station state leave (R21, R32 to R36) -/

/-- A query that is not DONE becomes DONE with outcome ABORTED and value 0000h (R142). -/
def abortedQuery (q : Query) : Query :=
  if q.state = .done then q else { q with state := .done, outcome := some .aborted, result := 0 }

/-- The query unit after the station has left SYNCED from `s`; it is unchanged when `s` was not SYNCED (R33, R142). -/
def qryAfterLeaving (s : State) : QueryUnit :=
  if s.ctl.state = .synced then { s.qry with queries := s.qry.queries.map abortedQuery, answers := [] } else s.qry

/-- The QUERY records of leaving SYNCED from `s`; none when `s` was not SYNCED (R33, R141, R142). -/
def leavingRecords (s : State) : List EventRec :=
  if s.ctl.state = .synced then
    queryRecords (fun q => decide (q.state ≠ .done)) .aborted s.line.round s.qry.queries
  else []

/-- The line unit once slot following and the contention have ended and a gathered frame (log 23) and the pictures have been dropped
(R21, R33, R54). -/
def lineAfterLeaving (s : State) : LineUnit :=
  if s.ctl.state = .synced then
    let l := if s.line.tx = .gap then
        { s.line with tx := .idle, gapTimer := none, txFrame := [], txQuery := none, txAnswer := false } else s.line
    { l with slot := none, slotTimer := none, contention := none, pictures := [] }
  else s.line

/-- The same parameter store but for the counters. -/
def SameStore (s t : State) : Prop := t.par.host = s.par.host ∧ t.par.permit = s.par.permit

/-- Entry to FAULT from LISTEN or SYNCED (R21, R31, R32, R33, R41, R42). -/
structure FaultEntered (fault : FaultCause) (cause : StateCause) (s t : State) : Prop where
  ctl : t.ctl = { s.ctl with
    state := .fault, faultCause := fault, driveMode := .safe
    loneCounter := if s.ctl.state = .synced then 0 else s.ctl.loneCounter
    heard := if s.ctl.state = .synced then false else s.ctl.heard
    ageTimer := if s.ctl.state = .synced then some s.agePeriod else s.ctl.ageTimer }
  line : t.line = { lineAfterLeaving s with phase := .watch, slot := none, slotTimer := none, contention := none, coldStart := none }
  qry : t.qry = qryAfterLeaving s
  drive : DriveTaken [] s t
  events : Recorded (leavingRecords s ++ [⟨.state, 3, mkWord (causeCode cause) (faultCode fault), s.line.round⟩]) s t
  rest : t.mir = s.mir ∧ t.port = s.port ∧ t.time = s.time ∧ t.pending = s.pending

/-- RESTART has been made (R21, R35, R42, R57, R76). Its QUERY records before its ENTRY records are the model's choice (log 20). -/
structure Restarted (s t : State) : Prop where
  ctl : t.ctl = { s.ctl with
    state := .listen, faultCause := .none, holds := ⟨s.ctl.holds.host, false⟩, loneCounter := 0, heard := false
    ageTimer := some s.agePeriod, driveMode := if s.ctl.holds.host then .safe else .drive }
  line : t.line = { lineAfterLeaving s with
    phase := .watch, slot := none, slotTimer := none, contention := none, coldStart := some s.coldStartWait
    collisionRun := 0, driverRun := 0, foreignCount := 0 }
  mir : t.mir = s.mir.map (Option.map distrustedEntry)
  qry : t.qry = qryAfterLeaving s
  drive : PinsSound s → Running s → DriveTaken (changedNotice distrustedEntry s.mir) s t
  kept : DriveOnly s t
  events : Recorded (leavingRecords s ++ entryRecords distrustedEntry s.line.round s.mir ++
    [⟨.state, 1, 0x0800, s.line.round⟩] ++ holdRecords s.ctl.holds ⟨s.ctl.holds.host, false⟩ s.line.round) s t
  rest : t.time = s.time ∧ t.pending = s.pending

/-- RECONFIGURE has been made (R21, R36, R42, R57, R75, R101, R120, R143). Its QUERY records before its ENTRY records are the
model's choice (log 20), and so is a reception in progress followed unreceived (log 15). -/
structure Reconfigured (s t : State) : Prop where
  ctl : t.ctl = { s.ctl with
    state := .config, faultCause := .none, holds := ⟨false, false⟩, loneCounter := 0, heard := false, ageTimer := none
    driveMode := .safe }
  line : t.line = { lineAfterLeaving s with
    phase := .off, slot := none, slotTimer := none, contention := none, coldStart := none
    rx := if s.line.rx = .receiving then .ignoring else s.line.rx, dupReport := false, driverReport := false }
  mir : t.mir = s.mir.map (Option.map clearedEntry)
  qry : t.qry = { s.qry with queries := [], answers := [] }
  cond : t.cond = { s.cond with raw := 0, sure := 0, confirmed := 0, timers := List.replicate 16 .idle, notices := [] }
  out : t.out = { s.out with
    mode := .config, parked := safeLevels s.out.active, pins := safeLevels s.out.active
    level := startLevels s.out.active, latched := 0, pulse := List.replicate 16 .idle, hostLevel := 0, copy := 0 }
  pts : t.pts = { s.pts with
    driveMode := .safe
    points := [pointAt s 0, ⟨t.out.pins, .good⟩, ⟨0, .held⟩] ++ List.replicate 5 ⟨0, .held⟩ }
  events : Recorded (leavingRecords s ++ entryRecords clearedEntry s.line.round s.mir ++
    [⟨.state, 0, 0x0900, s.line.round⟩] ++ holdRecords s.ctl.holds ⟨false, false⟩ s.line.round) s t
  rest : t.time = s.time ∧ t.pending = s.pending

/-! ## What the round leaves (R7, R9, R15, R30) -/

/-- The line unit `l` at the start of slot `k`, `elapsed` units after its start point: the skip point is 4 CT after it, and in
the own slot the frame of that point is gathered and waits out its gap of 1 CT: the picture given, or with none the frame of the
station as it stands (R7, R15, R54; the time past is log 25, the moment of a picture log 32). -/
def slotLine (k elapsed : Nat) (picture : Option SlotPicture) (t : State) (l : LineUnit) : LineUnit :=
  let m := { l with phase := .slots, slot := some k, slotTimer := some (4 * t.ct - elapsed), contention := none, coldStart := none }
  if k = t.address then
    let p := picture.getD ⟨buildSlot (ownSlot t), (oldestQueued t.qry.queries).map fun q => q.tag, !t.qry.answers.isEmpty⟩
    { m with
      tx := .gap, gapTimer := some (t.ct - elapsed), txFrame := p.chars, txQuery := p.query, txAnswer := p.answer }
  else m

/-- The line unit `l` at the start of a contention, `elapsed` units of silence after its start (R10). -/
def contentionLine (elapsed : Nat) (t : State) (l : LineUnit) : LineUnit :=
  { l with phase := .contention, slot := none, slotTimer := none, contention := some ((6 + 2 * t.address) * t.ct - elapsed) }

/-- A query after a round close: a SENT one has waited one round more and times out at Q rounds (R135). -/
def closedQuery (timeout : Nat) (q : Query) : Query :=
  if q.state = .sent then
    if timeout ≤ q.waited + 1 then
      { q with state := .done, outcome := some .timeout, result := 0, waited := q.waited + 1 }
    else { q with waited := q.waited + 1 }
  else q

/-- The lone counter after a round close (R39). -/
def closedLone (s : State) : Nat :=
  if s.ctl.heard = false ∧ s.ctl.loneCounter < s.settings.loneLimit.toNat then s.ctl.loneCounter + 1 else s.ctl.loneCounter

/-- The hold reasons after a round close (R39). -/
def closedHolds (s : State) : HoldReasons :=
  ⟨s.ctl.holds.host, s.ctl.holds.lone ||
    decide (s.ctl.heard = false ∧ 0 < s.settings.loneLimit.toNat ∧ closedLone s = s.settings.loneLimit.toNat)⟩

/-- The close of the round has been announced to the three blocks (R9, R39, R43, R68, R70, R135, R141); nothing is said of the
line unit. The order of the three blocks' records is the model's choice (log 8). -/
structure RoundClosed (s t : State) : Prop where
  mir : t.mir = s.mir.map (Option.map agedEntry)
  qry : t.qry = { s.qry with queries := s.qry.queries.map (closedQuery s.settings.timeout.toNat) }
  ctl : t.ctl = { s.ctl with
    heard := false, loneCounter := closedLone s, holds := closedHolds s, driveMode := t.ctl.driveMode }
  drive : PinsSound s → Running s → DriveTaken (changedNotice agedEntry s.mir) s t
  kept : DriveOnly s t
  events : Recorded (entryRecords agedEntry s.line.round s.mir ++
    queryRecords (fun q => decide (q.state = .sent ∧ s.settings.timeout.toNat ≤ q.waited + 1)) .timeout s.line.round
      s.qry.queries ++
    holdRecords s.ctl.holds (closedHolds s) s.line.round) s t
  rest : t.port = s.port ∧ t.time = s.time ∧ t.pending = s.pending

/-- Slot `k` has ended `elapsed` units ago, at the moment of `picture`: the next slot starts, or after slot S-1 the round closes and
the contention begins (R7, R8, R9, R10). -/
def SlotEnded (k elapsed : Nat) (picture : Option SlotPicture) (s t : State) : Prop :=
  (k + 1 < s.slots → t.line = slotLine (k + 1) elapsed picture t s.line ∧ t = { s with line := t.line }) ∧
    (s.slots ≤ k + 1 → RoundClosed s t ∧ t.line = contentionLine elapsed t s.line)

/-- A peer's frame has been applied by the mirror table and the station controller (R8, R39, R43, R66, R71, R73). The mirror
table's records and notices before the controller's are the model's choice (log 9). -/
structure FrameApplied (f : SlotFrame) (s t : State) : Prop where
  mir : t.mir = s.mir.map (Option.map (offeredEntry f s.line.round))
  ctl : t.ctl = { s.ctl with
    heard := true, loneCounter := 0, holds := ⟨s.ctl.holds.host, false⟩, driveMode := t.ctl.driveMode }
  drive : PinsSound s → Running s → DriveTaken (entryNotice (fun e => decide (e.source = f.sender)) s.mir) s t
  kept : DriveOnly s t
  events : Recorded (entryRecords (offeredEntry f s.line.round) s.line.round s.mir ++
    holdRecords s.ctl.holds ⟨s.ctl.holds.host, false⟩ s.line.round) s t
  rest : t.line = s.line ∧ t.qry = s.qry ∧ t.port = s.port ∧ t.time = s.time ∧ t.pending = s.pending

/-- The station as it takes a delivered frame: the reception has ended and is counted, the expected slot is the sender's, and
skipped slots count as a slip (R4, R19). -/
def frameTaken (chars : List RxChar) (f : SlotFrame) (k : Nat) (s : State) : State :=
  { s with
    line := { s.line with rx := .idle, rxFrame := storedChars chars, pictures := [], slot := some f.sender.toNat }
    par := { s.par with counters := { s.par.counters with
      validFrames := satInc s.par.counters.validFrames
      slips := if k < f.sender.toNat then satInc s.par.counters.slips else s.par.counters.slips } } }

/-- Sync loss has taken the station from SYNCED to LISTEN (R21, R30, R33, R42). -/
structure SyncLost (cause : StateCause) (foreign : Nat) (s t : State) : Prop where
  ctl : t.ctl = { s.ctl with
    state := .listen, faultCause := .none, loneCounter := 0, heard := false, ageTimer := some s.agePeriod }
  line : t.line = { lineAfterLeaving s with
    phase := .watch, slot := none, slotTimer := none, contention := none, coldStart := some s.coldStartWait
    collisionRun := 0, driverRun := 0, foreignCount := foreign }
  qry : t.qry = qryAfterLeaving s
  blocks : t.mir = s.mir ∧ t.cond = s.cond ∧ t.out = s.out ∧ t.pts = s.pts
  events : Recorded (leavingRecords s ++ [⟨.state, 1, mkWord (causeCode cause) 0, s.line.round⟩])
    { s with par := { s.par with counters := { s.par.counters with syncLosses := satInc s.par.counters.syncLosses } } } t
  rest : t.port = s.port ∧ t.time = s.time ∧ t.pending = s.pending

/-! ## Passes (R84 to R97, R105 to R110) -/

/-- Whether a notice concerns a term (R88). -/
def Concerns (n : Notice) (x : Term) : Prop :=
  x.mask ≠ 0 ∧ match n with
    | .entries places => ∃ i, x.ref = .entry i ∧ i.val ∈ places
    | .point p => ∃ q, x.ref = .point q ∧ q.val = p
    | .point2Quality => x.ref = .point 2
    | .point2Bit k => x.ref = .point 2 ∧ bitOf x.mask k = true

/-- Line `i` of `t` after a confirmed change of condition `k` to `b` in `s`: a rule with that source acts by its kind, every other
line stays (R105 to R110). -/
def LineActed (k : Nat) (b : Bool) (s t : State) (i : Nat) : Prop :=
  (∀ r c, ruleAt s.out.active i = some r → r.source = .cond c → c.val = k →
    (r.kind = .follow → bitOf t.out.level i = b) ∧
    (r.kind = .invert → bitOf t.out.level i = !b) ∧
    (r.kind = .latch → bitOf t.out.level i = (bitOf s.out.level i || (b && !bitOf s.out.latched i))) ∧
    (r.kind = .pulse → bitOf t.out.level i = (bitOf s.out.level i || b)) ∧
    (r.kind = .toggle → bitOf t.out.level i = (bitOf s.out.level i ^^ b)) ∧
    bitOf t.out.latched i = (bitOf s.out.latched i || (decide (r.kind = .latch) && b)) ∧
    timerAt t.out.pulse i =
      (if r.kind = .pulse ∧ b = true then startTimer false r.width.toNat s else timerAt s.out.pulse i)) ∧
  ((∀ r c, ruleAt s.out.active i = some r → r.source = .cond c → c.val ≠ k) →
    bitOf t.out.level i = bitOf s.out.level i ∧ bitOf t.out.latched i = bitOf s.out.latched i ∧
    timerAt t.out.pulse i = timerAt s.out.pulse i)

/-- The confirmed result of condition `k` has changed to `b` (R96, R105): the CONDITION record, bit `k` of point 2, the source
copy, the rules with their LATCH records, the pins and point 1. The announcement of point 2 is not said here (R89, R94). -/
structure ConfirmedChange (k : Nat) (d : Condition) (b expiry : Bool) (s t : State) : Prop where
  cond : t.cond = { s.cond with confirmed := putBit s.cond.confirmed k b, notices := t.cond.notices } ∧
    s.cond.notices <+: t.cond.notices
  events : Recorded
    ((if d.report = true then [⟨.condition, BitVec.ofNat 8 k, mkWord (flagAt b 0 ||| flagAt (bitOf s.cond.sure k) 1 |||
        flagAt (bitOf s.cond.raw k) 2 ||| flagAt expiry 3) 0, s.line.round⟩] else []) ++
      latchRecords k b s.out s.line.round) s t
  out : t.out = { s.out with
    copy := putBit s.out.copy k b, level := t.out.level, latched := t.out.latched, pulse := t.out.pulse
    pins := shownPins t.out }
  lines : s.out.pulse.length = 16 → ∀ i < 16, LineActed k b s t i
  pts : t.pts = { s.pts with points := t.pts.points } ∧ ∀ p, p ≠ 1 → p ≠ 2 → pointAt t p = pointAt s p
  point2 : s.pts.points.length = 8 → pointAt t 2 = ⟨putBit (pointAt s 2).value k b, (pointAt s 2).quality⟩
  point1 : s.pts.points.length = 8 → pointAt s 1 = ⟨s.out.pins, .good⟩ → Running s →
    pointAt t 1 = ⟨t.out.pins, .good⟩ ∧ t.cond.notices = s.cond.notices ++ pinNotice s t
  rest : t.line = s.line ∧ t.ctl = s.ctl ∧ t.mir = s.mir ∧ t.qry = s.qry ∧ t.port = s.port ∧ t.time = s.time ∧
    t.pending = s.pending

/-- Condition `k` has been evaluated once: its raw result and sure flag, then its confirmation by its timer and confirm times
(R84 to R87, R92, R93). -/
def Evaluated (k : Nat) (d : Condition) (s t : State) : Prop :=
  let raw := rawResult s k d
  let ms := (if raw then d.t1 else d.t0).toNat
  let e := { s with cond := { s.cond with
    raw := putBit s.cond.raw k raw, sure := putBit s.cond.sure k (allKnown s d) } }
  match timerAt s.cond.timers k with
  | .running _ _ =>
    t = if raw = bitOf s.cond.confirmed k then
      { e with cond := { e.cond with timers := s.cond.timers.set k .idle } } else e
  | .idle =>
    if raw = bitOf s.cond.confirmed k then t = e
    else if ms = 0 then ConfirmedChange k d raw false e t
    else t = { e with cond := { e.cond with timers := s.cond.timers.set k (startTimer raw ms s) } }

/-- A whole pass over the conditions, ascending, `u k` being the station before condition `k`: a defined condition is evaluated,
once, when it is a member or when a condition below it was confirmed anew within the pass and one of its terms counts that bit
of point 2; every other condition is passed over (R88, R89, R97). -/
def PassTaken (member : Condition → Prop) (s t : State) : Prop :=
  ∃ u : Nat → State, u 0 = s ∧ u 16 = t ∧ ∀ k < 16,
    let joins := fun d : Condition => member d ∨
      ∃ j < k, bitOf (u (j + 1)).cond.confirmed j ≠ bitOf (u j).cond.confirmed j ∧ ∃ x ∈ d.terms, Concerns (.point2Bit j) x
    (∀ d, condAt s.cond k = some d → joins d → Evaluated k d (u k) (u (k + 1))) ∧
    ((∀ d, condAt s.cond k = some d → ¬joins d) → u (k + 1) = u k)

/-! ## The event queue (R188, R189) -/

/-- At most 32 records, 32 only with a LOST record newest, and no LOST record with a count of 0. -/
def QueueSound (s : State) : Prop :=
  s.evq.length ≤ 32 ∧ (s.evq.length = 32 → ∃ r, s.evq.getLast? = some r ∧ r.kind = .lost) ∧
    ∀ r ∈ s.evq, r.kind = .lost → r.subject ≠ 0

/-! ## The mirror table (R58, R61, R68, R75) -/

/-- An entry whose definition is in range, that is LIVE or HELD only below its age limit, and that carries nothing while NEVER. -/
def EntrySound (e : Entry) : Prop :=
  e.source.toNat ≤ 31 ∧ e.point.toNat ≤ 7 ∧ 1 ≤ e.ageLimit.toNat ∧ e.ageLimit.toNat ≤ 15 ∧ e.age ≤ 15 ∧
    (e.status = .live ∨ e.status = .held → e.age < e.ageLimit.toNat) ∧
    (e.status = .never → e.value = 0 ∧ e.age = 0 ∧ e.fresh = false ∧ e.changed = false ∧ e.lastRound = 0)

/-- 64 places whose entries are sound; in CONFIG every entry is NEVER with NOT-OFFERED clear. -/
def MirrorSound (s : State) : Prop :=
  s.mir.length = 64 ∧
    ∀ e, some e ∈ s.mir → EntrySound e ∧ (s.ctl.state = .config → e.status = .never ∧ e.notOffered = false)

/-! ## The query unit (R129, R140) -/

/-- At most four queries, no two with one tag, QUEUED and SENT ones only while SYNCED, an outcome exactly when DONE; at most
four pending answers, and none outside SYNCED. -/
def QuerySound (s : State) : Prop :=
  s.qry.queries.length ≤ 4 ∧ (s.qry.queries.map fun q => q.tag).Nodup ∧
    (∀ q ∈ s.qry.queries, (q.state = .done ↔ q.outcome ≠ none) ∧ (s.ctl.state ≠ .synced → q.state = .done)) ∧
    s.qry.answers.length ≤ 4 ∧ (s.ctl.state ≠ .synced → s.qry.answers = [])

/-! ## The conditions (R80, R93, R100, R101) -/

/-- Condition `k`: undefined, its results are FALSE and its timer idle; with an idle timer its confirmed result is its raw
result; a running timer runs towards the raw result, which then differs from the confirmed one. -/
def ConditionSound (c : CondUnit) (k : Nat) : Prop :=
  (condAt c k = none → bitOf c.raw k = false ∧ bitOf c.sure k = false ∧ bitOf c.confirmed k = false ∧
      timerAt c.timers k = .idle) ∧
    (match timerAt c.timers k with
      | .idle => bitOf c.confirmed k = bitOf c.raw k
      | .running b _ => bitOf c.raw k = b ∧ bitOf c.confirmed k = !b)

/-- Every condition is sound, point 2 shows the confirmed results, and in CONFIG the records stand at their starting values. -/
def ConditionsSound (s : State) : Prop :=
  s.cond.defs.length = 16 ∧ s.cond.timers.length = 16 ∧ s.pts.points.length = 8 ∧
    (∀ k < 16, ConditionSound s.cond k) ∧ (pointAt s 2).value = s.cond.confirmed ∧
    (s.ctl.state = .config → s.cond.raw = 0 ∧ s.cond.sure = 0 ∧ s.cond.timers = List.replicate 16 .idle ∧
      s.cond.notices = [])

/-! ## The output rules (R106 to R108, R119) -/

/-- The kept level of line `i` against its active rule: FOLLOW and INVERT by the source copy, LATCH by the mark, PULSE by the
timer; a pulse timer runs on a PULSE line only. -/
def LineSound (o : OutUnit) (i : Nat) : Prop :=
  (isRunning (timerAt o.pulse i) = true → isKindLine o.active .pulse i = true) ∧
    match ruleAt o.active i with
    | none => True
    | some r => match r.source with
      | .host => True
      | .cond k => match r.kind with
        | .follow => bitOf o.level i = bitOf o.copy k.val
        | .invert => bitOf o.level i = !bitOf o.copy k.val
        | .latch => bitOf o.level i = bitOf o.latched i
        | .pulse => bitOf o.level i = isRunning (timerAt o.pulse i)
        | .toggle => True

/-- Every line is sound and the source copies are the confirmed results. -/
def OutputsSound (s : State) : Prop :=
  s.out.edited.length = 16 ∧ s.out.active.length = 16 ∧ s.out.pulse.length = 16 ∧ s.out.copy = s.cond.confirmed ∧ ∀ i < 16, LineSound s.out i

/-! ## The station and its line unit (R21, R29, R32, R159) -/

/-- The settings of a copy can run: in range, with the address below S (R158, R170). -/
def SettingsRun (c : Settings) : Prop := settingsInRange c = true ∧ c.address.toNat < c.slots.toNat

/-- The line unit's phase is the one of the station state. -/
def PhaseSound (s : State) : Prop :=
  match s.ctl.state with
  | .config => s.line.phase = .off
  | .listen => s.line.phase = .watch
  | .fault => s.line.phase = .watch
  | .synced => s.line.phase = .slots ∨ s.line.phase = .contention

/-- The station as a whole: phase, fault cause, settings, slot number and transmitter agree with the station state; pictures are
held exactly while a reception occupies a slot (log 32), and a collided activity is not received (R16); a command is held only
outside CONFIG, with the port in EXECUTING. -/
def StationSound (s : State) : Prop :=
  PhaseSound s ∧ (s.ctl.faultCause ≠ .none ↔ s.ctl.state = .fault) ∧
    (s.ctl.editedSet = true → settingsInRange s.ctl.edited = true) ∧ (∀ c, s.ctl.committed = some c → SettingsRun c) ∧
    (s.ctl.state ≠ .config → s.ctl.committed = some s.ctl.edited ∧ s.ctl.editedSet = true) ∧
    (∀ k, s.line.slot = some k → s.ctl.state = .synced ∧ k < s.slots) ∧
    (s.line.phase = .slots → s.line.slot ≠ none) ∧
    (txSending s = true → s.ctl.state = .synced ∧ s.line.rx = .idle ∧ s.line.dupReport = false ∧ s.line.driverReport = false) ∧
    (s.line.pictures ≠ [] ↔ s.line.phase = .slots ∧ s.line.rx = .receiving) ∧
    (∀ kind, s.line.tx = .collided kind → s.line.rx ≠ .receiving) ∧
    (s.ctl.state = .config → s.ctl.holds = HoldReasons.empty) ∧
    (s.ctl.held ≠ none → s.ctl.state ≠ .config ∧ s.port.phase = .executing)

/-! ## The host port (R146, R150, R153) -/

/-- The port: empty buffers in READY, a partial message in FILLING with PERR clear, a held command exactly in EXECUTING, an
unread reply of at most 32 bytes in REPLYING; the discard mark only in EXECUTING. -/
def PortSound (s : State) : Prop :=
  (s.port.discard = true → s.port.phase = .executing) ∧ (s.ctl.held ≠ none ↔ s.port.phase = .executing) ∧
    (∀ d, some d ∈ s.cond.defs → d.terms.length ≤ 4) ∧
    match s.port.phase with
    | .ready => s.port.buf = [] ∧ s.port.len = none ∧ s.port.reply = [] ∧ s.port.pos = 0
    | .filling => s.port.perr = false ∧ s.port.reply = [] ∧ s.port.pos = 0 ∧ match s.port.len with
      | none => s.port.buf.length = 1
      | some n => 1 ≤ n ∧ n ≤ 30 ∧ 2 ≤ s.port.buf.length ∧ s.port.buf.length < 2 + n
    | .executing => s.port.buf.length ≤ 32 ∧ s.port.reply = [] ∧ s.port.pos = 0
    | .replying => s.port.buf = [] ∧ s.port.len = none ∧ s.port.reply.length ≤ 32 ∧ s.port.pos < s.port.reply.length

/-! ## The whole station -/

/-- Every block is sound. -/
structure Sound (s : State) : Prop where
  queue : QueueSound s
  mirror : MirrorSound s
  query : QuerySound s
  conditions : ConditionsSound s
  outputs : OutputsSound s
  pins : PinsSound s
  station : StationSound s
  port : PortSound s

end Sys2Proof.Machine
end

