-- ==== Sys2Proof/Certificates/Slice0/Obligations.lean ====
section
/-! DEFINITION. The statements for the provers. Each says what a command or the station does by the rules its docstring names. The
row of a host's command stands for its whole message at a free port and is executed within the step (the model's choices, logs 12
and 13). -/

open Sys2Proof Sys2Proof.Machine

/-! ## The machine -/

/-- A step takes the command at the front of the queue and executes it with the queue's rest (log 1). -/
def Obligations.StepTakesFrontCommand : Prop :=
  ∀ (c : Instr) (rest : List Instr) (s : State),
    step { s with pending := c :: rest } = exec c { s with pending := rest }

/-- With no command waiting the station takes the first of its own events that are due: a held notice, a waiting report, a held
command with no own frame on the line, a frame whose gap is over, then a timer that has run out, by `ownEvents`. With none due a
unit of time passes and changes timers only: the contention and cold-start timers run down while no character is in progress and
stand still else (R2, R10, R13), the slot, gap and age-step timers always, the millisecond timers at every 100th unit (R1, R201);
and while pictures of the own frame are held the unit left adds one and those older than a CT go (R54). The order of the events (log
2), time (log 3), the waiting of an own frame for a report or held command (log 7) and the pictures (log 32) are the model's
choices. -/
def Obligations.EmptyQueueIsOwnTime : Prop :=
  ∀ s : State, s.pending = [] →
    (∀ c, firstDueEvent s = some c → step s = exec c s) ∧
    (firstDueEvent s = none →
      let quiet := s.line.rx = .idle ∧ (s.line.tx = .idle ∨ s.line.tx = .gap)
      let ms := fun t : Timer => match t with
        | .running b n => if s.time.phase + 1 < 100 then Timer.running b n else .running b (n - 1)
        | .idle => .idle
      step s = .next { s with
        time := ⟨if s.time.phase + 1 < 100 then s.time.phase + 1 else 0⟩
        line := { s.line with
          contention := if quiet then s.line.contention.map (· - 1) else s.line.contention
          coldStart := if quiet then s.line.coldStart.map (· - 1) else s.line.coldStart
          slotTimer := s.line.slotTimer.map (· - 1), gapTimer := s.line.gapTimer.map (· - 1)
          pictures := if s.line.pictures = [] then [] else (slotPicture s :: s.line.pictures).take s.ct }
        ctl := { s.ctl with ageTimer := s.ctl.ageTimer.map (· - 1) }
        pts := { s.pts with filterTimers := s.pts.filterTimers.map ms }
        cond := { s.cond with timers := s.cond.timers.map ms }
        out := { s.out with pulse := s.out.pulse.map ms } })

/-- Nothing stops the station, and no command touches the queue of waiting commands (log 1). -/
def Obligations.EveryCommandCompletes : Prop :=
  ∀ (c : Instr) (s : State), ∃ t, exec c s = .next t ∧ t.pending = s.pending

/-- R1 over the model's clock (log 3): a filter, confirm or pulse timer of `n` ms, started now, is not due before `n` ms of passing
time and is due before `n + 1` ms have passed. -/
def Obligations.TimersExpireInTime : Prop :=
  ∀ (s : State) (b : Bool) (n i u : Nat), 1 ≤ n → s.time.phase < 100 →
    ∀ timers ∈ [fun x : State => x.pts.filterTimers, fun x => x.cond.timers, fun x => x.out.pulse],
      timerAt (timers s) i = startTimer b n s →
      (u < 100 * n → isDue (timerAt (timers ((tick^[u]) s)) i) = false) ∧
      (100 * (n + 1) ≤ u + 1 → isDue (timerAt (timers ((tick^[u]) s)) i) = true)

/-! ## The host port (08) -/

/-- A data write by the phase it finds (R146, R150): the command byte, the length byte, the operand bytes, the byte that
completes the message and runs its command, and the bytes that are discarded. That the command runs within that step is the
model's choice (log 13). -/
def Obligations.DataWriteByPhase : Prop :=
  ∀ (b : Byte) (s : State),
    (s.port.perr = true → exec (.hostDataWrite b) s = .next s) ∧
    (s.port.perr = false → s.port.phase = .ready →
      exec (.hostDataWrite b) s = .next { s with port := { s.port with phase := .filling, buf := [b], len := none } }) ∧
    (s.port.perr = false → s.port.phase = .filling → s.port.len = none → 30 < b.toNat →
      exec (.hostDataWrite b) s =
        .next { s with port := { s.port with phase := .ready, buf := [], len := none, perr := true } }) ∧
    (s.port.perr = false → s.port.phase = .filling → s.port.len = none → 1 ≤ b.toNat → b.toNat ≤ 30 →
      exec (.hostDataWrite b) s =
        .next { s with port := { s.port with buf := s.port.buf ++ [b], len := some b.toNat } }) ∧
    (∀ code, s.port.perr = false → s.port.phase = .filling → s.port.len = none → s.port.buf = [code] → b = 0 →
      exec (.hostDataWrite b) s = .next (execute [code, 0] (bodyOf (decodeMessage code [])) s)) ∧
    (∀ n, s.port.perr = false → s.port.phase = .filling → s.port.len = some n → s.port.buf.length + 1 ≠ 2 + n →
      exec (.hostDataWrite b) s = .next { s with port := { s.port with buf := s.port.buf ++ [b] } }) ∧
    (∀ n code len ops, s.port.perr = false → s.port.phase = .filling → s.port.len = some n →
      s.port.buf = code :: len :: ops → ops.length + 1 = n →
      exec (.hostDataWrite b) s =
        .next (execute (code :: len :: ops ++ [b]) (bodyOf (decodeMessage code (ops ++ [b]))) s)) ∧
    (s.port.perr = false → s.port.phase = .executing ∨ s.port.phase = .replying →
      exec (.hostDataWrite b) s = .next { s with port := { s.port with perr := true } })

/-- The bytes of a whole message, written one after the other to a port in READY with PERR clear, do what the command's own row
does (R146, R147; log 12). -/
def Obligations.MessageRunsItsCommand : Prop :=
  ∀ (c : Instr) (code : Byte) (ops : List Byte) (rest : List Instr) (s : State),
    messageOf c = some (code, ops) → operandsFit ops = true → s.port.phase = .ready → s.port.perr = false →
    Host.Core.run Sys2Proof.core (ops.length + 2)
        { s with pending := (code :: BitVec.ofNat 8 ops.length :: ops).map Instr.hostDataWrite ++ rest } =
      exec c { s with pending := rest }

/-- A data read by the phase it finds (R149, R150), and a whole reply read byte after byte (R149). That the byte read is kept in
`readData` is the model's choice (log 18), and so is a read position of 0 once the reply buffer is emptied (log 30). -/
def Obligations.DataReads : Prop :=
  (∀ s : State,
    (s.port.phase = .replying → s.port.pos + 1 < s.port.reply.length →
      exec .dataRead s = .next { s with port := { s.port with
        pos := s.port.pos + 1, readData := some (s.port.reply.getD s.port.pos 0) } }) ∧
    (s.port.phase = .replying → s.port.reply.length ≤ s.port.pos + 1 →
      exec .dataRead s = .next { s with port := { s.port with
        phase := .ready, reply := [], pos := 0, readData := some (s.port.reply.getD s.port.pos 0) } }) ∧
    (s.port.phase = .filling →
      exec .dataRead s = .next { s with port := { s.port with
        phase := .ready, buf := [], len := none, perr := true, readData := some 0 } }) ∧
    (s.port.phase = .ready ∨ s.port.phase = .executing →
      exec .dataRead s = .next { s with port := { s.port with perr := true, readData := some 0 } })) ∧
  (∀ (s : State) (rest : List Instr) (k : Nat), s.port.phase = .replying → s.port.pos = 0 → k < s.port.reply.length →
    Host.Core.run Sys2Proof.core (k + 1) { s with pending := List.replicate (k + 1) Instr.dataRead ++ rest } =
      .next { s with
        pending := rest
        port := { s.port with
          phase := if k + 1 = s.port.reply.length then .ready else .replying
          reply := if k + 1 = s.port.reply.length then [] else s.port.reply
          pos := if k + 1 = s.port.reply.length then 0 else k + 1
          readData := s.port.reply[k]? } })

/-- A write on the status path is a port reset, by the phase it finds; the byte is not used (R151). Outside READY it leaves the
buffers emptied, in EXECUTING while the command goes on (R152, R156); in READY they are empty by `PortSound`. That the read position
is then 0 and no length is received is the model's choice (log 30). -/
def Obligations.PortResetByPhase : Prop :=
  ∀ (b : Byte) (s : State),
    (s.port.phase = .ready → exec (.portReset b) s = .next { s with port := { s.port with perr := false } }) ∧
    (s.port.phase = .filling → exec (.portReset b) s =
      .next { s with port := { s.port with
        phase := .ready, buf := [], len := none, reply := [], pos := 0, perr := false } }) ∧
    (s.port.phase = .executing → exec (.portReset b) s =
      .next { s with port := { s.port with
        buf := [], len := none, reply := [], pos := 0, perr := false, discard := true } }) ∧
    (s.port.phase = .replying → exec (.portReset b) s =
      .next { s with port := { s.port with
        phase := .ready, buf := [], len := none, reply := [], pos := 0, perr := false } })

/-- The checks of a message in their order: a code that names no command is answered BAD-COMMAND, an operand count that is not the
command's own BAD-LENGTH in every station state, then a configuration command outside CONFIG, and a station or run-time command in
CONFIG, WRONG-STATE. A refused message changes nothing but the reply (R147, R154, R157, R177). -/
def Obligations.MessagesRefused : Prop :=
  (∀ (code : Byte) (ops : List Byte) (s : State), commandCodes.contains code = false → operandsFit ops = true → PortFree s →
    exec (.badCommand code ops) s = .next (withReply .badCommand [] s)) ∧
  (∀ (c : Instr) (code : Byte) (counts : List Nat) (ops : List Byte) (s : State),
    messageOf c = some (code, ops) → (code, counts) ∈ commandForms → PortFree s →
    (ops.length ∉ counts → operandsFit ops = true → exec c s = .next (withReply .badLength [] s)) ∧
    (ops.length ∈ counts → (code ∈ configCodes ∧ s.ctl.state ≠ .config) ∨ (code ∈ runningCodes ∧ s.ctl.state = .config) →
      exec c s = .next (withReply .wrongState [] s)))

/-! ## Configuration (09) -/

/-- SET-STATION in CONFIG: the nine edited settings and their set mark, or BAD-OPERAND and nothing (R158). -/
def Obligations.SetStationStores : Prop :=
  ∀ (a n r kh kl p f ih il l q : Byte) (s : State), PortFree s → s.ctl.state = .config →
    (a.toNat ≤ 31 ∧ 2 ≤ n.toNat ∧ n.toNat ≤ 32 ∧ r.toNat ≤ 3 ∧ 3 ≤ p.toNat ∧ p.toNat ≤ 8 ∧ f.toNat ≤ 15 ∧ l.toNat ≤ 15 ∧
        2 ≤ q.toNat ∧ q.toNat ≤ 15 →
      exec (.setStation [a, n, r, kh, kl, p, f, ih, il, l, q]) s = .next (withReply .ok [] { s with
        ctl := { s.ctl with
          editedSet := true
          edited := { address := a, slots := n, rate := r, key := mkWord kh kl, publish := p, filter := f,
                      invert := mkWord ih il, loneLimit := l, timeout := q } } })) ∧
    (¬(a.toNat ≤ 31 ∧ 2 ≤ n.toNat ∧ n.toNat ≤ 32 ∧ r.toNat ≤ 3 ∧ 3 ≤ p.toNat ∧ p.toNat ≤ 8 ∧ f.toNat ≤ 15 ∧ l.toNat ≤ 15 ∧
        2 ≤ q.toNat ∧ q.toNat ≤ 15) →
      exec (.setStation [a, n, r, kh, kl, p, f, ih, il, l, q]) s = .next (withReply .badOperand [] s))

/-- SET-ENTRY and CLEAR-ENTRY in CONFIG: the place is defined with its runtime fields at their starting values, or cleared
(R58, R160, R161). -/
def Obligations.EntryDefinitions : Prop :=
  ∀ (place source point age report : Byte) (s : State), PortFree s → s.ctl.state = .config →
    (place.toNat ≤ 63 ∧ source.toNat ≤ 31 ∧ point.toNat ≤ 7 ∧ 1 ≤ age.toNat ∧ age.toNat ≤ 15 ∧ report.toNat ≤ 1 →
      exec (.setEntry [place, source, point, age, report]) s = .next (withReply .ok [] { s with
        mir := s.mir.set place.toNat (some {
          source := source, point := point, ageLimit := age, report := decide (report = 1), value := 0
          status := .never, age := 0, fresh := false, notOffered := false, changed := false, lastRound := 0 }) })) ∧
    (¬(place.toNat ≤ 63 ∧ source.toNat ≤ 31 ∧ point.toNat ≤ 7 ∧ 1 ≤ age.toNat ∧ age.toNat ≤ 15 ∧ report.toNat ≤ 1) →
      exec (.setEntry [place, source, point, age, report]) s = .next (withReply .badOperand [] s)) ∧
    (place.toNat ≤ 63 →
      exec (.clearEntry [place]) s = .next (withReply .ok [] { s with mir := s.mir.set place.toNat none })) ∧
    (63 < place.toNat → exec (.clearEntry [place]) s = .next (withReply .badOperand [] s))

/-- SET-CONDITION and CLEAR-CONDITION in CONFIG: with every operand in range the whole definition is stored, its runtime record
untouched, else BAD-OPERAND; or the place is cleared (R162, R164, R198). A term's reference is its first byte of five. -/
def Obligations.ConditionDefinitions : Prop :=
  (∀ (place mode policy held report t1 t0 : Byte) (terms : List Byte) (inRange : Prop) (s : State),
    PortFree s → s.ctl.state = .config → terms.length ∈ [5, 10, 15, 20] →
    (inRange ↔ place.toNat ≤ 15 ∧ mode.toNat ≤ 3 ∧ policy.toNat ≤ 3 ∧ held.toNat ≤ 1 ∧ report.toNat ≤ 1 ∧
      ∀ i, 5 * i < terms.length →
        (terms.getD (5 * i) 0).toNat ≤ 0x07 ∨ (0x40 ≤ (terms.getD (5 * i) 0).toNat ∧ (terms.getD (5 * i) 0).toNat ≤ 0x7F)) →
    (inRange → ∃ d : Condition,
      exec (.setCondition (place :: mode :: policy :: held :: report :: t1 :: t0 :: terms)) s =
        .next (withReply .ok [] { s with cond := { s.cond with defs := s.cond.defs.set place.toNat (some d) } }) ∧
      modeCode d.mode = mode ∧ policyCode d.policy = policy ∧ d.heldUnknown = decide (held = 1) ∧
      d.report = decide (report = 1) ∧ d.t1 = t1 ∧ d.t0 = t0 ∧
      d.terms.flatMap (fun t => [refCode t.ref, hiByte t.mask, loByte t.mask, hiByte t.pattern, loByte t.pattern]) = terms) ∧
    (¬inRange →
      exec (.setCondition (place :: mode :: policy :: held :: report :: t1 :: t0 :: terms)) s =
        .next (withReply .badOperand [] s))) ∧
  (∀ (place : Byte) (s : State), PortFree s → s.ctl.state = .config →
    (place.toNat ≤ 15 → exec (.clearCondition [place]) s =
      .next (withReply .ok [] { s with cond := { s.cond with defs := s.cond.defs.set place.toNat none } })) ∧
    (15 < place.toNat → exec (.clearCondition [place]) s = .next (withReply .badOperand [] s)))

/-- SET-OUTPUT and CLEAR-OUTPUT in CONFIG: with every operand in range the edited rule only, else BAD-OPERAND; the active rule, the
rule state and the pins stay (R165, R166). SET-PERMIT in CONFIG: every mask is accepted and takes its place whole (R167). -/
def Obligations.OutputAndPermitDefinitions : Prop :=
  ∀ (line source kind safe width : Byte) (inRange : Prop) (s : State), PortFree s → s.ctl.state = .config →
    (inRange ↔ line.toNat ≤ 15 ∧ (source.toNat ≤ 15 ∨ source = 0x80) ∧ kind.toNat ≤ 4 ∧ safe.toNat ≤ 1 ∧
      (kind = 3 → width ≠ 0)) →
    (inRange → ∃ r : OutRule,
      exec (.setOutput [line, source, kind, safe, width]) s =
        .next (withReply .ok [] { s with out := { s.out with edited := s.out.edited.set line.toNat (some r) } }) ∧
      (source = 0x80 → r.source = .host) ∧ (∀ k : Fin 16, source.toNat = k.val → r.source = .cond k) ∧
      kindOperand r.kind = kind ∧ r.safe = decide (safe = 1) ∧ r.width = width) ∧
    (¬inRange → exec (.setOutput [line, source, kind, safe, width]) s = .next (withReply .badOperand [] s)) ∧
    (line.toNat ≤ 15 → exec (.clearOutput [line]) s =
      .next (withReply .ok [] { s with out := { s.out with edited := s.out.edited.set line.toNat none } })) ∧
    (15 < line.toNat → exec (.clearOutput [line]) s = .next (withReply .badOperand [] s)) ∧
    (∀ hi lo : Byte, exec (.setPermit [hi, lo]) s =
      .next (withReply .ok [] { s with par := { s.par with permit := mkWord hi lo } }))

/-- READ-CONFIG in every state returns the edited definitions (R168), and the settings, the fields of a condition or a line rule come
back as the bytes that SET-STATION, SET-CONDITION or SET-OUTPUT was given (R158, R162, R165, R198). -/
def Obligations.ReadConfigReadsBack : Prop :=
  (∀ (index : Byte) (s : State), PortFree s →
    (index = 0 → exec (.readConfig [0, index]) s =
      .next (withReply .ok [0, index, flagByte s.ctl.editedSet, s.ctl.edited.address, s.ctl.edited.slots, s.ctl.edited.rate,
        hiByte s.ctl.edited.key, loByte s.ctl.edited.key, s.ctl.edited.publish, s.ctl.edited.filter,
        hiByte s.ctl.edited.invert, loByte s.ctl.edited.invert, s.ctl.edited.loneLimit, s.ctl.edited.timeout] s)) ∧
    (∀ e, index.toNat ≤ 63 → entryAt s.mir index.toNat = some e → exec (.readConfig [1, index]) s =
      .next (withReply .ok [1, index, 1, e.source, e.point, e.ageLimit, flagByte e.report] s)) ∧
    (index.toNat ≤ 63 → entryAt s.mir index.toNat = none → exec (.readConfig [1, index]) s =
      .next (withReply .ok [1, index, 0, 0, 0, 0, 0] s)) ∧
    (∀ d, index.toNat ≤ 15 → condAt s.cond index.toNat = some d → exec (.readConfig [2, index]) s =
      .next (withReply .ok ([2, index, 1] ++ conditionBytes d) s)) ∧
    (index.toNat ≤ 15 → condAt s.cond index.toNat = none → exec (.readConfig [2, index]) s =
      .next (withReply .ok [2, index, 0, 0, 0, 0, 0, 0, 0, 0] s)) ∧
    (∀ r, index.toNat ≤ 15 → ruleAt s.out.edited index.toNat = some r → exec (.readConfig [3, index]) s =
      .next (withReply .ok ([3, index, 1] ++ ruleBytes r) s)) ∧
    (index.toNat ≤ 15 → ruleAt s.out.edited index.toNat = none → exec (.readConfig [3, index]) s =
      .next (withReply .ok [3, index, 0, 0, 0, 0, 0] s)) ∧
    (index = 0 → exec (.readConfig [4, index]) s =
      .next (withReply .ok [4, index, 1, hiByte s.par.permit, loByte s.par.permit] s)) ∧
    (∀ kind : Byte, 4 < kind.toNat ∨ (kind = 0 ∧ index ≠ 0) ∨ (kind = 1 ∧ 63 < index.toNat) ∨ (kind = 2 ∧ 15 < index.toNat) ∨
        (kind = 3 ∧ 15 < index.toNat) ∨ (kind = 4 ∧ index ≠ 0) →
      exec (.readConfig [kind, index]) s = .next (withReply .badOperand [] s))) ∧
  (∀ (a n r kh kl p f ih il l q : Byte) (s t u : State), PortFree s → s.ctl.state = .config →
    exec (.setStation [a, n, r, kh, kl, p, f, ih, il, l, q]) s = .next t → t.port.reply = [0, 0] → u = { t with port := s.port } →
    exec (.readConfig [0, 0]) u = .next (withReply .ok [0, 0, 1, a, n, r, kh, kl, p, f, ih, il, l, q] u)) ∧
  (∀ (mode policy held report t1 t0 : Byte) (terms : List Byte) (d : Condition), terms.length ∈ [5, 10, 15, 20] →
    readCondition mode policy held report t1 t0 terms = some d →
    conditionBytes d = [mode, policy, held, report, t1, t0, BitVec.ofNat 8 (terms.length / 5)] ++ terms) ∧
  (∀ (source kind safe width : Byte) (r : OutRule), readRule source kind safe width = some r →
    ruleBytes r = [source, kind, safe, width])

/-- COMMIT in CONFIG is accepted exactly when the edited configuration passes every check; otherwise it is answered
INVALID-CONFIG with the code and the item of the first failure, the five steps in order and the places of each ascending, and
changes nothing (R169 to R173, R198). -/
def Obligations.CommitChecks : Prop :=
  ∀ s : State, PortFree s → s.ctl.state = .config →
    (Consistent s → ∃ t, exec (.commit []) s = .next t ∧ t.ctl.state = .listen ∧
      t.port = { s.port with
        phase := .replying, buf := [], len := none, pos := 0
        reply := [0, 2] ++ wordBytes (signatureOf s.ctl.edited) }) ∧
    (¬Consistent s → ∃ x i, FirstFailure s x i) ∧
    (∀ x i, FirstFailure s x i →
      exec (.commit []) s = .next (withReply .invalidConfig [checkCode x, BitVec.ofNat 8 i] s))

/-- A successful COMMIT starts the station (R24, R51, R91, R101, R120, R121, R143, R175): settings and signature, LISTEN in DRIVE
mode, every block's runtime at its start, the definitions as they were edited, the STATE record; then the initial evaluation of
every defined condition from there as one pass. The notices of the start wait behind it, point 1 first (log 29), none older among
them (log 11); an activity on the line goes on as it is followed (logs 15 and 22). -/
def Obligations.CommitStarts : Prop :=
  ∀ s : State, PortFree s → s.ctl.state = .config → Consistent s → s.pts.points.length = 8 →
    ∃ b t, exec (.commit []) s = .next (withReply .ok (wordBytes (signatureOf s.ctl.edited)) t) ∧
      b = { s with
        ctl := { s.ctl with
          state := .listen, faultCause := .none, holds := ⟨false, false⟩, loneCounter := 0, heard := false
          ageTimer := some (40 * s.ctl.edited.slots.toNat * Config.ctUnits s.ctl.edited.rate), driveMode := .drive
          committed := some s.ctl.edited, signature := signatureOf s.ctl.edited }
        line := { s.line with
          phase := .watch, slot := none, slotTimer := none, contention := none, collisionRun := 0, driverRun := 0
          foreignCount := 0
          coldStart := some ((4 * s.ctl.edited.slots.toNat + 6 + 2 * s.ctl.edited.address.toNat) *
            Config.ctUnits s.ctl.edited.rate) }
        mir := s.mir.map (Option.map clearedEntry)
        qry := { s.qry with queries := [], answers := [] }
        cond := { s.cond with
          raw := 0, sure := 0, confirmed := 0, timers := List.replicate 16 .idle, notices := b.cond.notices }
        out := { s.out with
          mode := .drive, active := s.out.edited, level := startLevels s.out.edited, latched := 0
          pulse := List.replicate 16 .idle, hostLevel := 0, copy := 0, pins := startLevels s.out.edited }
        pts := { s.pts with
          filterTime := s.ctl.edited.filter, invert := s.ctl.edited.invert
          publish := some s.ctl.edited.publish.toNat, driveMode := .drive
          points := [⟨s.pts.filtered ^^^ s.ctl.edited.invert, .good⟩, pointAt b 1, ⟨0, .good⟩] ++
            List.replicate 5 ⟨0, .held⟩ }
        evq := b.evq, par := b.par } ∧
      Recorded [⟨.state, 1, 0x0100, s.line.round⟩] s b ∧
      (pointAt s 1 = ⟨s.out.pins, .good⟩ →
        pointAt b 1 = ⟨b.out.pins, .good⟩ ∧ b.cond.notices = pinNotice s b ++ [.point2Quality]) ∧
      PassTaken (fun _ => True) b t

/-! ## Commands of every state (07, 10) -/

/-- GET-STATUS returns the station's fields and READ-PARAMETER a parameter word as they stand, changing nothing (R124, R126, R182).
Before the first COMMIT the committed address and S read 0 (the model's choice, log 21). -/
def Obligations.StatusAndParameterReads : Prop :=
  ∀ (index : Byte) (s : State), PortFree s →
    exec (.getStatus []) s = .next (withReply .ok
      ([stateCode s.ctl.state, faultCode s.ctl.faultCause, holdByte s.ctl.holds, s.settings.address, s.settings.slots,
        s.line.round, hiByte s.ctl.signature, loByte s.ctl.signature,
        BitVec.ofNat 8 (countStatus .never s.mir), BitVec.ofNat 8 (countStatus .live s.mir),
        BitVec.ofNat 8 (countStatus .held s.mir), BitVec.ofNat 8 (countStatus .stale s.mir),
        BitVec.ofNat 8 s.qry.queries.length, BitVec.ofNat 8 s.evq.length]) s) ∧
    (index.toNat ≤ 31 → exec (.readParameter [index]) s = .next (withReply .ok
      (wordBytes (if index.toNat < 16 then s.par.host.getD index.toNat 0 else
        [mkWord s.settings.address (flagAt s.ctl.holds.lone 5 ||| flagAt s.ctl.holds.host 4 |||
            (faultCode s.ctl.faultCause <<< 2) ||| stateCode s.ctl.state),
          mkWord s.line.round s.settings.slots, s.par.counters.validFrames, s.par.counters.invalidFrames,
          s.par.counters.collisions, s.par.counters.roundsOpened, s.par.counters.mismatches, s.par.counters.slips,
          s.par.counters.syncLosses, s.par.counters.foreignOpens, s.par.counters.lateAnswers,
          s.par.counters.droppedQueries, s.ctl.signature, s.par.counters.lostRecords, 0x0416,
          s.par.counters.roundCuts].getD (index.toNat - 16) 0)) s)) ∧
    (31 < index.toNat → exec (.readParameter [index]) s = .next (withReply .badOperand [] s))

/-- WRITE-PARAMETER stores the host parameter whatever the permit mask holds and posts nothing; CLEAR-COUNTERS clears every
counter word and nothing else (R125, R127, R184). -/
def Obligations.ParameterCommands : Prop :=
  ∀ (index hi lo : Byte) (s : State), PortFree s →
    (index.toNat ≤ 15 → exec (.writeParameter [index, hi, lo]) s =
      .next (withReply .ok [] { s with par := { s.par with host := s.par.host.set index.toNat (mkWord hi lo) } })) ∧
    (15 < index.toNat → exec (.writeParameter [index, hi, lo]) s = .next (withReply .badOperand [] s)) ∧
    exec (.clearCounters []) s = .next (withReply .ok [] { s with par := { s.par with counters := {
      validFrames := 0, invalidFrames := 0, collisions := 0, roundsOpened := 0, mismatches := 0, slips := 0
      syncLosses := 0, foreignOpens := 0, lateAnswers := 0, droppedQueries := 0, lostRecords := 0, roundCuts := 0 } } })

/-- The status byte shows the port, the queue, the state, the holds and the query list, and its reading changes nothing: it is no
command and is computed from the state. HATN follows the queue, LDE the own frame; LTX is "H" at rest and carries the transmit
frame's characters in their bit times, start bit, 8 data bits from the least significant, stop bit (R2, R16, R21, R145, R155, R199,
R201). That a data bit of 1 is "H" is the model's reading (log 31). -/
def Obligations.StatusByteAndPins : Prop :=
  ∀ s : State,
    (bitOf ((statusByte s).setWidth 16) 0 = true ↔
      (s.port.phase = .ready ∨ s.port.phase = .filling) ∧ s.port.perr = false) ∧
    (bitOf ((statusByte s).setWidth 16) 1 = true ↔ s.port.phase = .replying) ∧
    (bitOf ((statusByte s).setWidth 16) 2 = true ↔ s.evq ≠ []) ∧
    (bitOf ((statusByte s).setWidth 16) 3 = true ↔ s.ctl.state = .listen ∨ s.ctl.state = .fault) ∧
    (bitOf ((statusByte s).setWidth 16) 4 = true ↔ s.ctl.state = .synced ∨ s.ctl.state = .fault) ∧
    (bitOf ((statusByte s).setWidth 16) 5 = true ↔ s.ctl.holds.host = true ∨ s.ctl.holds.lone = true) ∧
    (bitOf ((statusByte s).setWidth 16) 6 = true ↔ s.port.perr = true) ∧
    (bitOf ((statusByte s).setWidth 16) 7 = true ↔ ∃ q ∈ s.qry.queries, q.state = .done) ∧
    (hatn s = true ↔ s.evq ≠ []) ∧ (lde s = true ↔ ∃ kind, s.line.tx = .sending kind) ∧
    (lde s = false → ∀ n, ltx s n = true) ∧
    (lde s = true → ∀ j c, s.line.txFrame[j]? = some c →
      ltx s (10 * j) = false ∧ (∀ i < 8, ltx s (10 * j + 1 + i) = c.getLsbD i) ∧ ltx s (10 * j + 9) = true) ∧
    (lde s = true → ∀ n, 10 * s.line.txFrame.length ≤ n → ltx s n = true)

/-- TAKE-EVENT in every state removes the oldest record and returns its five bytes; on an empty queue it answers OK with M of 0
and changes nothing; with the last record HATN and the EVENT field fall (R155, R192). -/
def Obligations.TakeEventOldest : Prop :=
  ∀ s : State, PortFree s →
    (s.evq = [] → exec (.takeEvent []) s = .next (withReply .ok [] s)) ∧
    (∀ r rest, s.evq = r :: rest → ∃ t, exec (.takeEvent []) s = .next t ∧
      t = withReply .ok [kindCode r.kind, r.subject, hiByte r.detail, loByte r.detail, r.round] { s with evq := rest } ∧
      (hatn t = false ↔ rest = []) ∧ (bitOf ((statusByte t).setWidth 16) 2 = false ↔ rest = []))

/-- A posting of an ordinary record: appended with the round number held while the queue holds fewer than 31 records, else dropped
into the newest LOST record or into a new one and counted in word 29; the queue keeps its bound of 32 (R185, R188, R189). -/
def Obligations.PostedRecords : Prop :=
  ∀ (kind : EventKind) (subject : Byte) (detail : Word) (s : State), kind ≠ .lost →
    (s.evq.length < 31 →
      post kind subject detail s = { s with evq := s.evq ++ [⟨kind, subject, detail, s.line.round⟩] }) ∧
    (∀ (q : List EventRec) (n : EventRec), 31 ≤ s.evq.length → s.evq = q ++ [n] →
      post kind subject detail s = { s with
        evq := (if n.kind = .lost then
            q ++ [{ n with
              subject := if n.subject = 255 then 255 else n.subject + 1
              detail := mkWord (hiByte n.detail) (kindCode kind) }]
          else q ++ [n, ⟨.lost, 1, mkWord (kindCode kind) (kindCode kind), s.line.round⟩])
        par := { s.par with counters := { s.par.counters with
          lostRecords := if s.par.counters.lostRecords = 0xFFFF then 0xFFFF else s.par.counters.lostRecords + 1 } } }) ∧
    (QueueSound s → QueueSound (post kind subject detail s))

/-! ## Station commands (02) -/

/-- HOLD and RESUME change the HOST hold reason; a change gives the drive mode of R40 to the pins and posts a HOLD event with the
reasons before and after; the reply carries the reasons as they then stand (R38, R40, R43, R50, R56, R181). The pins, points 1
and 2 and their announcements follow the drive mode, point 1 announced first by the model's choice (log 29). -/
def Obligations.HoldAndResume : Prop :=
  ∀ (b : Bool) (s : State), PortFree s → Running s → PinsSound s →
    ∃ t h, h = (⟨b, s.ctl.holds.lone⟩ : HoldReasons) ∧
      exec (if b then .hold [] else .resume []) s = .next t ∧
      t.ctl = { s.ctl with holds := h, driveMode := deriveMode s.ctl.state h } ∧
      t.port = (withReply .ok [holdByte h] s).port ∧
      DriveTaken [] s t ∧ Recorded (holdRecords s.ctl.holds h s.line.round) s t ∧
      t.line = s.line ∧ t.mir = s.mir ∧ t.qry = s.qry ∧ t.time = s.time

/-- RESTART outside an own transmission enters LISTEN anew with LONE cleared, peer entries stale and queries aborted, host points
and filter timers kept; its STATE event is followed by a HOLD event exactly when LONE was set (R33, R35, R57, R66, R71, R76). The
model's: the order of QUERY before ENTRY records (log 20) and of the notices of points 1 and 2 (log 29), a frame still in its gap
dropped (log 23), and a collided activity followed on into LISTEN (log 22). -/
def Obligations.RestartEffect : Prop :=
  ∀ s : State, PortFree s → Running s → txSending s = false →
    ∃ t, exec (.restart []) s = .next t ∧ Restarted s t ∧ t.port = (withReply .ok [] s).port

/-- RECONFIGURE outside an own transmission enters CONFIG: the outputs park at their safe levels, runtime state is cleared, and
settings, definitions, host parameters and input levels stay (R36, R57, R75, R101, R120, R143). The model's: waiting reports
cleared (log 7), waiting notices dropped (log 11), a reception in progress followed unreceived (log 15), the order of QUERY before
ENTRY records (log 20), a collided activity followed on (log 22), and a frame still in its gap dropped (log 23). -/
def Obligations.ReconfigureEffect : Prop :=
  ∀ s : State, PortFree s → Running s → txSending s = false → PinsSound s →
    ∃ t, exec (.reconfigure []) s = .next t ∧ Reconfigured s t ∧ t.port = (withReply .ok [] s).port

/-- While an own frame is in transmission a RESTART or RECONFIGURE is held with the port in EXECUTING and nothing else changed;
once the frame has ended it is made and its reply placed, or discarded after a port reset (R37, R148, R152). The model's: reports
cleared and notices dropped at RECONFIGURE (logs 7 and 11), a reception in progress then followed unreceived (log 15), the order of
QUERY before ENTRY records (log 20), a collided activity followed on (log 22), a frame still in its gap dropped (log 23), point 1's
notice before point 2's (log 29), and a read position of 0 after a discarded reply (log 30). -/
def Obligations.HeldCommandWaits : Prop :=
  (∀ s : State, PortFree s → Running s → txSending s = true →
    exec (.restart []) s = .next { s with
      ctl := { s.ctl with held := some .restart }
      port := { s.port with phase := .executing, buf := [0x31, 0], len := some 0 } } ∧
    exec (.reconfigure []) s = .next { s with
      ctl := { s.ctl with held := some .reconfigure }
      port := { s.port with phase := .executing, buf := [0x30, 0], len := some 0 } }) ∧
  (∀ (c : HeldCommand) (s : State), s.ctl.held = some c → txSending s = true → exec .heldCommandRelease s = .next s) ∧
  (∀ (c : HeldCommand) (s : State), s.ctl.held = some c → txSending s = false → PinsSound s →
    ∃ t, exec .heldCommandRelease s = .next t ∧
      (c = .restart → Restarted { s with ctl := { s.ctl with held := none } } t) ∧
      (c = .reconfigure → Reconfigured { s with ctl := { s.ctl with held := none } } t) ∧
      (s.port.discard = false → t.port = { s.port with
        phase := .replying, buf := [], len := none, reply := [0, 0], pos := 0 }) ∧
      (s.port.discard = true → t.port = { s.port with
        phase := .ready, buf := [], len := none, reply := [], pos := 0, discard := false }))

/-! ## Run-time commands (03 to 07) -/

/-- WRITE-POINT sets value and quality of a host point together; a changed record is announced and an equal one is not
(R44, R52, R56). -/
def Obligations.WritePointAnnounces : Prop :=
  ∀ (point hi lo quality : Byte) (q : Quality) (s : State), PortFree s → Running s →
    (3 ≤ point.toNat → point.toNat ≤ 7 → quality = qualityCode q → pointAt s point.toNat = ⟨mkWord hi lo, q⟩ →
      exec (.writePoint [point, hi, lo, quality]) s = .next (withReply .ok [] s)) ∧
    (3 ≤ point.toNat → point.toNat ≤ 7 → quality = qualityCode q → pointAt s point.toNat ≠ ⟨mkWord hi lo, q⟩ →
      exec (.writePoint [point, hi, lo, quality]) s = .next (withReply .ok [] { s with
        pts := { s.pts with points := s.pts.points.set point.toNat ⟨mkWord hi lo, q⟩ }
        cond := { s.cond with notices := s.cond.notices ++ [.point point.toNat] } })) ∧
    (point.toNat < 3 ∨ 7 < point.toNat ∨ 1 < quality.toNat →
      exec (.writePoint [point, hi, lo, quality]) s = .next (withReply .badOperand [] s))

/-- READ-POINTS, READ-CONDITIONS and READ-OUTPUTS return their vectors and change nothing; READ-ENTRY returns the record of a
defined place and clears its CHANGED mark (R53, R77, R100, R119). -/
def Obligations.RuntimeReads : Prop :=
  (∀ s : State, PortFree s → Running s →
    exec (.readPoints []) s = .next (withReply .ok
      (((List.range 8).flatMap fun i => wordBytes (pointAt s i).value) ++
        [qualityBits 0 ((List.range 8).map (pointAt s))] ++ wordBytes s.pts.raw ++
        wordBytes (wordOf fun i => isRunning (timerAt s.pts.filterTimers i)) ++
        [BitVec.ofNat 8 (s.pts.publish.getD 0)]) s) ∧
    exec (.readConditions []) s = .next (withReply .ok
      ((List.flatMap (fun f => wordBytes (wordOf fun k => (condAt s.cond k).isSome && f k))
        [fun _ => true, bitOf s.cond.raw, bitOf s.cond.sure, bitOf s.cond.confirmed,
          fun k => isRunning (timerAt s.cond.timers k)])) s) ∧
    exec (.readOutputs []) s = .next (withReply .ok
      (wordBytes s.out.pins ++ wordBytes (ruleLevels s.out) ++
        wordBytes (wordOf fun i => isKindLine s.out.active .latch i && bitOf s.out.latched i) ++
        wordBytes (wordOf fun i => isKindLine s.out.active .pulse i && isRunning (timerAt s.out.pulse i))) s)) ∧
  (∀ (place : Byte) (s : State), PortFree s → Running s →
    (∀ e, place.toNat ≤ 63 → entryAt s.mir place.toNat = some e →
      exec (.readEntry [place]) s = .next (withReply .ok
        [hiByte e.value, loByte e.value, entryCode e.status, BitVec.ofNat 8 e.age, flagByte e.notOffered,
          flagByte e.changed, e.lastRound]
        { s with mir := s.mir.set place.toNat (some { e with changed := false }) })) ∧
    (place.toNat ≤ 63 → entryAt s.mir place.toNat = none →
      exec (.readEntry [place]) s = .next (withReply .notFound [] s)) ∧
    (63 < place.toNat → exec (.readEntry [place]) s = .next (withReply .badOperand [] s)))

/-- SET-OUTPUTS writes the host levels of HOST and undefined lines only; UNLATCH clears the set marks whose source is FALSE and
reports the lines whose source is TRUE; the pins follow in the drive mode in force, and point 1 with them, announced once when
they differ (R48, R56, R111, R112, R115, R116). -/
def Obligations.OutputCommands : Prop :=
  (∀ (mh ml lh ll : Byte) (s : State), PortFree s → Running s →
    ((∀ i < 16, bitOf (mkWord mh ml) i = true → isHostLine s.out.active i = true) →
      ∃ t, exec (.setOutputs [mh, ml, lh, ll]) s = .next t ∧
        t.out = { s.out with hostLevel := t.out.hostLevel, pins := shownPins t.out } ∧
        (∀ i < 16, bitOf t.out.hostLevel i =
          if bitOf (mkWord mh ml) i then bitOf (mkWord lh ll) i else bitOf s.out.hostLevel i) ∧
        t.port = (withReply .ok [] s).port ∧
        (pointAt s 1 = ⟨s.out.pins, .good⟩ → s.pts.points.length = 8 →
          t.pts = { s.pts with points := s.pts.points.set 1 ⟨t.out.pins, .good⟩ } ∧
          t.cond = { s.cond with notices := s.cond.notices ++ pinNotice s t }) ∧
        t = { s with out := t.out, pts := t.pts, cond := t.cond, port := t.port }) ∧
    ((∃ i < 16, bitOf (mkWord mh ml) i = true ∧ isHostLine s.out.active i = false) →
      exec (.setOutputs [mh, ml, lh, ll]) s = .next (withReply .badOperand [] s))) ∧
  (∀ (mh ml : Byte) (s : State), PortFree s → Running s →
    ((∀ i < 16, bitOf (mkWord mh ml) i = true → isKindLine s.out.active .latch i = true) →
      ∃ t cleared active, exec (.unlatch [mh, ml]) s = .next t ∧
        (∀ i < 16, bitOf active i = (bitOf (mkWord mh ml) i && bitOf (sourceTrue s.out) i)) ∧
        (∀ i < 16, bitOf cleared i =
          (bitOf (mkWord mh ml) i && bitOf s.out.latched i && !bitOf (sourceTrue s.out) i)) ∧
        t.port = (withReply (if active = 0 then .ok else .stillActive) (wordBytes cleared ++ wordBytes active) s).port ∧
        t.out = { s.out with latched := t.out.latched, level := t.out.level, pins := shownPins t.out } ∧
        (∀ i < 16, bitOf t.out.latched i = (bitOf s.out.latched i && !bitOf cleared i) ∧
          bitOf t.out.level i = (bitOf s.out.level i && !bitOf cleared i)) ∧
        (pointAt s 1 = ⟨s.out.pins, .good⟩ → s.pts.points.length = 8 →
          t.pts = { s.pts with points := s.pts.points.set 1 ⟨t.out.pins, .good⟩ } ∧
          t.cond = { s.cond with notices := s.cond.notices ++ pinNotice s t }) ∧
        t = { s with out := t.out, pts := t.pts, cond := t.cond, port := t.port }) ∧
    ((∃ i < 16, bitOf (mkWord mh ml) i = true ∧ isKindLine s.out.active .latch i = false) →
      exec (.unlatch [mh, ml]) s = .next (withReply .badOperand [] s)))

/-- An accepted QUERY takes the first tag from the counter upward that no place holds and sets the counter one above it; a query to
a peer is QUEUED at the end of the issue order, a query to the own address is served at once and DONE. One that fails a check is
answered with the first failing one, NOT-SYNCED, BAD-OPERAND or FULL, and changes nothing (R130 to R133). A self query posts its
QUERY record, after the PARAM record of a WRITE that stores (R132, R141). That a result not yet set is held as 0000h is the model's
choice (log 34). -/
def Obligations.QueryCommand : Prop :=
  (∀ (target index hi lo : Byte) (write : Bool) (s : State), PortFree s → s.ctl.state = .synced → QuerySound s →
      target.toNat < s.slots → index.toNat ≤ 31 → (write = true → index.toNat ≤ 15) → s.qry.queries.length < 4 →
      ∃ t n, n ≤ 3 ∧ exec (.query [target, flagByte write, index, hi, lo]) s = .next t ∧
        (∀ q ∈ s.qry.queries, q.tag ≠ s.qry.tagCounter + BitVec.ofNat 4 n) ∧
        (∀ m < n, ∃ q ∈ s.qry.queries, q.tag = s.qry.tagCounter + BitVec.ofNat 4 m) ∧
        t.port = (withReply .ok [(s.qry.tagCounter + BitVec.ofNat 4 n).setWidth 8] s).port ∧
        t.qry.tagCounter = s.qry.tagCounter + BitVec.ofNat 4 n + 1 ∧ t.qry.answers = s.qry.answers ∧
        (target.toNat ≠ s.address →
          t = { s with port := t.port, qry := { s.qry with
            tagCounter := t.qry.tagCounter
            queries := s.qry.queries ++ [{
              state := .queued, target := target, write := write, index := index
              value := if write then mkWord hi lo else 0, tag := s.qry.tagCounter + BitVec.ofNat 4 n
              sendRound := 0, waited := 0, outcome := none, result := 0 }] } }) ∧
        (target.toNat = s.address →
          ∃ q o, t.qry.queries = s.qry.queries ++ [q] ∧ q.tag = s.qry.tagCounter + BitVec.ofNat 4 n ∧ q.state = .done ∧
            q.target = target ∧ q.write = write ∧ q.index = index ∧ q.outcome = some o ∧
            (write = false → q.outcome = some .ok ∧ q.result = paramWord s index.toNat ∧ t.par.host = s.par.host) ∧
            (write = true → bitOf s.par.permit index.toNat = true → q.outcome = some .ok ∧ q.result = mkWord hi lo ∧
              t.par.host = s.par.host.set index.toNat (mkWord hi lo)) ∧
            (write = true → bitOf s.par.permit index.toNat = false → q.outcome = some .denied ∧ q.result = 0 ∧
              t.par.host = s.par.host) ∧
            Recorded ((if write = true ∧ bitOf s.par.permit index.toNat = true
                then [⟨.param, index, mkWord 0 target, s.line.round⟩] else []) ++
              [⟨.query, q.tag.setWidth 8, mkWord (outcomeCode o) target, s.line.round⟩])
              { s with par := { s.par with host := t.par.host } } t ∧
            t.line = s.line ∧ t.ctl = s.ctl ∧ t.mir = s.mir ∧ t.out = s.out ∧ t.pts = s.pts ∧ t.cond = s.cond ∧
            t.time = s.time)) ∧
  (∀ (target operation index hi lo : Byte) (s : State), PortFree s → Running s →
      (s.ctl.state ≠ .synced → exec (.query [target, operation, index, hi, lo]) s = .next (withReply .notSynced [] s)) ∧
      (s.ctl.state = .synced →
        s.slots ≤ target.toNat ∨ 1 < operation.toNat ∨ 31 < index.toNat ∨ (operation = 1 ∧ 15 < index.toNat) →
        exec (.query [target, operation, index, hi, lo]) s = .next (withReply .badOperand [] s)) ∧
      (s.ctl.state = .synced → target.toNat < s.slots → operation.toNat ≤ 1 → index.toNat ≤ 31 →
        (operation = 1 → index.toNat ≤ 15) → 4 ≤ s.qry.queries.length →
        exec (.query [target, operation, index, hi, lo]) s = .next (withReply .full [] s)))

/-- TAKE-ANSWER returns the outcome, the value, the target and the index of a DONE query and frees its place; a tag no place holds
is NOT-FOUND, a query not DONE is NOT-READY (R138). -/
def Obligations.TakeAnswerFrees : Prop :=
  ∀ (tag : Byte) (s : State), PortFree s → Running s →
    (∀ before q after o, s.qry.queries = before ++ q :: after → (∀ x ∈ before, x.tag.setWidth 8 ≠ tag) →
      q.tag.setWidth 8 = tag → q.state = .done → q.outcome = some o →
      exec (.takeAnswer [tag]) s = .next (withReply .ok
        [outcomeCode o, hiByte q.result, loByte q.result, q.target, q.index]
        { s with qry := { s.qry with queries := before ++ after } })) ∧
    (∀ before q after, s.qry.queries = before ++ q :: after → (∀ x ∈ before, x.tag.setWidth 8 ≠ tag) →
      q.tag.setWidth 8 = tag → q.state ≠ .done →
      exec (.takeAnswer [tag]) s = .next (withReply .notReady [] s)) ∧
    (tag.toNat ≤ 15 → (∀ x ∈ s.qry.queries, x.tag.setWidth 8 ≠ tag) →
      exec (.takeAnswer [tag]) s = .next (withReply .notFound [] s)) ∧
    (15 < tag.toNat → exec (.takeAnswer [tag]) s = .next (withReply .badOperand [] s))

/-! ## Receptions (01, 02) -/

/-- A start bit begins a reception: it occupies the slot, stops the contention and cold-start timers and ends a frame gap; in a
slot the first picture of the own frame is taken. In CONFIG it begins an activity that is not received; during an own frame or a
collided one it begins nothing (R3, R7, R10, R13, R15, R16, R21, R54). The model's choices: a start bit within an activity changes
nothing (log 5), an activity in CONFIG is followed to its end (log 15), and the pictures (log 32). -/
def Obligations.StartBitBegins : Prop :=
  ∀ s : State,
    (s.line.rx = .idle → s.line.tx = .idle ∨ s.line.tx = .gap → s.line.phase ≠ .off →
      exec .startBit s = .next { s with line := { s.line with
        rx := .receiving, contention := none, coldStart := none, slotTimer := none
        tx := .idle, gapTimer := none, txFrame := [], txQuery := none, txAnswer := false
        pictures := if s.line.phase = .slots then
          [⟨buildSlot (ownSlot s), (oldestQueued s.qry.queries).map fun q => q.tag, !s.qry.answers.isEmpty⟩] else [] } }) ∧
    (s.line.rx = .idle → s.line.tx = .idle ∨ s.line.tx = .gap → s.line.phase = .off →
      exec .startBit s = .next { s with line := { s.line with rx := .ignoring } }) ∧
    (s.line.rx ≠ .idle ∨ (s.line.tx ≠ .idle ∧ s.line.tx ≠ .gap) → exec .startBit s = .next s)

/-- A reception that ends outside a round: in FAULT it is counted only, in LISTEN an invalid one or a peer's SLOT frame reloads the
cold-start timer, in CONFIG nothing is counted; an activity that is not received only reloads the timer (R4, R13, R20, R21, R23).
The model's choices: RECEPTION_END with no reception changes nothing (log 5), an activity not received is followed to its end
(log 15), and the CT of silence that shows an end has passed on the reloaded timer (log 25). -/
def Obligations.ReceptionsOutsideTheRound : Prop :=
  ∀ (chars : List RxChar) (s : State),
    (s.line.rx = .idle → exec (.receptionEnd chars) s = .next s) ∧
    (s.line.rx = .ignoring → exec (.receptionEnd chars) s = .next { s with line := { s.line with
      rx := .idle
      coldStart := if s.ctl.state = .listen then some (s.coldStartWait - s.ct) else s.line.coldStart } }) ∧
    (s.line.rx = .receiving → s.ctl.state = .config → exec (.receptionEnd chars) s =
      .next { s with line := { s.line with rx := .idle, rxFrame := storedChars chars, pictures := [] } }) ∧
    (s.line.rx = .receiving → s.ctl.state = .fault → exec (.receptionEnd chars) s = .next { s with
      line := { s.line with rx := .idle, rxFrame := storedChars chars, pictures := [] }
      par := { s.par with counters := (match judge chars with
        | none => { s.par.counters with invalidFrames := satInc s.par.counters.invalidFrames }
        | some (.slot _) => { s.par.counters with validFrames := satInc s.par.counters.validFrames }
        | some (.opening f) => { s.par.counters with
            validFrames := satInc s.par.counters.validFrames
            foreignOpens := if f.signature = s.ctl.signature ∧ f.slots = s.settings.slots then s.par.counters.foreignOpens
              else satInc s.par.counters.foreignOpens }) } }) ∧
    (s.line.rx = .receiving → s.ctl.state = .listen → judge chars = none → exec (.receptionEnd chars) s = .next { s with
      line := { s.line with
        rx := .idle, rxFrame := storedChars chars, pictures := []
        coldStart := some (s.coldStartWait - (if reachedEnd chars then 0 else s.ct)) }
      par := { s.par with counters := { s.par.counters with invalidFrames := satInc s.par.counters.invalidFrames } } }) ∧
    (∀ f, s.line.rx = .receiving → s.ctl.state = .listen → judge chars = some (.slot f) → f.sender.toNat ≠ s.address →
      exec (.receptionEnd chars) s = .next { s with
        line := { s.line with rx := .idle, rxFrame := storedChars chars, pictures := [], coldStart := some s.coldStartWait }
        par := { s.par with counters := { s.par.counters with validFrames := satInc s.par.counters.validFrames } } })

/-- In LISTEN a matching OPEN joins the station to its round, and a foreign one advances the foreign count, the third of which
enters FAULT(SIGNATURE) (R5, R13, R20, R26, R28, R32, R42). FOREIGN_LIMIT as a row of its own does so with the count at its limit,
and nothing otherwise, by the model's choice (log 6). At the entry to FAULT a collided activity is followed on (log 22) and point
1's notice comes before point 2's (log 29), by the model's choice. -/
def Obligations.OpenFramesInListen : Prop :=
  (∀ (chars : List RxChar) (f : OpenFrame) (s l : State), s.line.rx = .receiving → s.ctl.state = .listen → PinsSound s →
    judge chars = some (.opening f) →
    l = { s with
      line := { s.line with rx := .idle, rxFrame := storedChars chars, pictures := [] }
      par := { s.par with counters := { s.par.counters with validFrames := satInc s.par.counters.validFrames } } } →
    (f.signature = s.ctl.signature → f.slots = s.settings.slots →
      ∃ t, exec (.receptionEnd chars) s = .next t ∧
        t.ctl = { s.ctl with state := .synced, ageTimer := none, loneCounter := 0, heard := false } ∧
        t.line = slotLine 0 0 none t { l.line with round := f.round } ∧
        Recorded [⟨.state, 2, 0x0200, f.round⟩] l t ∧
        t = { s with ctl := t.ctl, line := t.line, evq := t.evq, par := t.par }) ∧
    (∀ c, c = { l with
        line := { l.line with foreignCount := s.line.foreignCount + 1, coldStart := some s.coldStartWait }
        par := { l.par with counters := { l.par.counters with foreignOpens := satInc s.par.counters.foreignOpens } } } →
      f.signature ≠ s.ctl.signature ∨ f.slots ≠ s.settings.slots →
      (s.line.foreignCount < 2 → exec (.receptionEnd chars) s = .next c) ∧
      (2 ≤ s.line.foreignCount →
        ∃ t, exec (.receptionEnd chars) s = .next t ∧ FaultEntered .signature .foreign c t))) ∧
  (∀ s : State, PinsSound s →
    (s.ctl.state = .listen → 3 ≤ s.line.foreignCount →
      ∃ t, exec .foreignLimit s = .next t ∧ FaultEntered .signature .foreign s t) ∧
    (s.ctl.state ≠ .listen ∨ s.line.foreignCount < 3 → exec .foreignLimit s = .next s))

/-- While SYNCED a matching OPEN in the contention starts its round, one in the slots cuts the round short and announces its close
first, and a foreign OPEN is a sync loss with a foreign count of 1 (R5, R9, R11, R14, R30). The model's choices: the order of the
close's records (log 8), a frame still in its gap dropped at the sync loss (log 23), and point 1's notice before point 2's where
the close sets LONE (log 29). -/
def Obligations.OpenFramesInSynced : Prop :=
  ∀ (chars : List RxChar) (f : OpenFrame) (s l : State), s.line.rx = .receiving → s.ctl.state = .synced →
    judge chars = some (.opening f) →
    l = { s with
      line := { s.line with rx := .idle, rxFrame := storedChars chars, pictures := [] }
      par := { s.par with counters := { s.par.counters with validFrames := satInc s.par.counters.validFrames } } } →
    (f.signature = s.ctl.signature → f.slots = s.settings.slots → s.line.phase ≠ .slots →
      ∃ t, exec (.receptionEnd chars) s = .next t ∧ t.line = slotLine 0 0 none t { l.line with round := f.round } ∧
        t = { l with line := t.line }) ∧
    (f.signature = s.ctl.signature → f.slots = s.settings.slots → s.line.phase = .slots →
      ∃ c t, exec (.receptionEnd chars) s = .next t ∧ RoundClosed l c ∧
        t.line = slotLine 0 0 none t { l.line with round := f.round } ∧
        t = { c with
          line := t.line
          par := { c.par with counters := { c.par.counters with roundCuts := satInc s.par.counters.roundCuts } } }) ∧
    (f.signature ≠ s.ctl.signature ∨ f.slots ≠ s.settings.slots → PinsSound s →
      ∃ t, exec (.receptionEnd chars) s = .next t ∧
        SyncLost .foreign 1 { l with par := { l.par with counters := { l.par.counters with
          foreignOpens := satInc s.par.counters.foreignOpens } } } t)

/-- A peer's SLOT frame with the round number held, at or after the expected slot, is delivered: the mirror entries of its sender
take the points it offers, the heard mark is set and LONE cleared, a skipped slot counts as a slip; then its items are taken, which
touch the query unit, the parameter store and the event queue only; then the slot after the sender's starts, or after slot S-1 the
round closes (R7 to R10, R19, R39, R62 to R66, R71, R73). The heard mark is set with a lone limit of 0 too (log 19), and the order
of the receivers' records and notices is the model's (logs 8, 9 and 29). -/
def Obligations.SlotFrameDelivered : Prop :=
  ∀ (chars : List RxChar) (f : SlotFrame) (k : Nat) (s : State), s.line.rx = .receiving → s.ctl.state = .synced →
    s.line.phase = .slots → s.line.slot = some k → judge chars = some (.slot f) →
    f.sender.toNat ≠ s.address → k ≤ f.sender.toNat → f.sender.toNat < s.slots → f.round = s.line.round →
    ∃ h d t, exec (.receptionEnd chars) s = .next t ∧ FrameApplied f (frameTaken chars f k s) h ∧
      d = { h with qry := d.qry, par := { d.par with permit := h.par.permit }, evq := d.evq } ∧
      ((∀ q, f.query = some q → q.target.toNat ≠ s.address) → (∀ a, f.answer = some a → a.requester.toNat ≠ s.address) →
        d = h) ∧
      SlotEnded f.sender.toNat 0 none d t

/-- The items of a delivered frame that are for this station, the query item first (the model's choice, log 9): a query is served
against the parameter store and its answer appended, with a PARAM record where a WRITE stores, or dropped when four answers are
pending; an answer makes the first matching SENT query DONE with a QUERY record, or is late. Other items change nothing (R8, R136,
R139, R140, R141). `h` is the station when the frame has been applied, `d` when its query, `e` when its answer has been taken. -/
def Obligations.DeliveredItems : Prop :=
  ∀ (chars : List RxChar) (f : SlotFrame) (k : Nat) (s : State), s.line.rx = .receiving → s.ctl.state = .synced →
    s.line.phase = .slots → s.line.slot = some k → judge chars = some (.slot f) →
    f.sender.toNat ≠ s.address → k ≤ f.sender.toNat → f.sender.toNat < s.slots → f.round = s.line.round →
    ∃ h d e t, exec (.receptionEnd chars) s = .next t ∧ FrameApplied f (frameTaken chars f k s) h ∧
      SlotEnded f.sender.toNat 0 none e t ∧
      ((∀ q, f.query = some q → q.target.toNat ≠ s.address) → d = h) ∧
      (∀ q, f.query = some q → q.target.toNat = s.address → 4 ≤ s.qry.answers.length →
        d = { h with par := { h.par with counters := { h.par.counters with
          droppedQueries := satInc h.par.counters.droppedQueries } } }) ∧
      (∀ q, f.query = some q → q.target.toNat = s.address → s.qry.answers.length < 4 →
        ∃ o v, d.qry = { s.qry with answers := s.qry.answers ++ [⟨f.sender, q.tag, s.line.round, o, v⟩] } ∧
          d = { h with qry := d.qry, par := d.par, evq := d.evq } ∧
          (q.write = false → o = .ok ∧ v = paramWord h q.index.toNat ∧ d = { h with qry := d.qry }) ∧
          (q.write = true → q.index.toNat < 16 → bitOf s.par.permit q.index.toNat = true →
            o = .ok ∧ v = q.value ∧
            Recorded [⟨.param, q.index, mkWord 0 f.sender, s.line.round⟩]
              { h with par := { h.par with host := s.par.host.set q.index.toNat q.value } } d) ∧
          (q.write = true → q.index.toNat < 16 → bitOf s.par.permit q.index.toNat = false →
            o = .denied ∧ v = 0 ∧ d = { h with qry := d.qry }) ∧
          (q.write = true → 16 ≤ q.index.toNat → o = .badIndex ∧ v = 0 ∧ d = { h with qry := d.qry })) ∧
      ((∀ a, f.answer = some a → a.requester.toNat ≠ s.address) → e = d) ∧
      (∀ a o before q after, f.answer = some a → a.requester.toNat = s.address → a.outcome = some o →
        s.qry.queries = before ++ q :: after →
        (∀ x ∈ before, ¬(x.state = .sent ∧ x.target = f.sender ∧ x.tag = a.tag ∧ x.sendRound = a.round)) →
        q.state = .sent → q.target = f.sender → q.tag = a.tag → q.sendRound = a.round →
        e.qry = { d.qry with queries :=
          before ++ { q with state := .done, outcome := some o, result := a.value } :: after } ∧
        Recorded [⟨.query, a.tag.setWidth 8, mkWord (outcomeCode o) f.sender, s.line.round⟩] d e ∧
        e = { d with qry := e.qry, par := e.par, evq := e.evq }) ∧
      (∀ a, f.answer = some a → a.requester.toNat = s.address →
        a.outcome = none ∨
          (∀ x ∈ s.qry.queries, ¬(x.state = .sent ∧ x.target = f.sender ∧ x.tag = a.tag ∧ x.sendRound = a.round)) →
        e = { d with par := { d.par with counters := { d.par.counters with
          lateAnswers := satInc d.par.counters.lateAnswers } } })

/-- The slot checks: a SLOT frame from the own address is a duplicate address, in the slots, in the contention and in LISTEN; one
from below the expected slot is a sync loss; one from outside the round, with another round number or in the contention counts as a
mismatch and is not applied; in the slots it ends the expected slot, and the round with the last one (R7, R9, R11, R19, R20, R30,
R31). The model's choices: the order of a close's records (log 8), a collided activity followed on (log 22), a frame still in its
gap dropped at leaving SYNCED (log 23), and point 1's notice before point 2's at the entry to FAULT or where the close sets LONE
(log 29). -/
def Obligations.SlotFrameChecks : Prop :=
  ∀ (chars : List RxChar) (f : SlotFrame) (s l m : State), s.line.rx = .receiving → judge chars = some (.slot f) →
    l = { s with
      line := { s.line with rx := .idle, rxFrame := storedChars chars, pictures := [] }
      par := { s.par with counters := { s.par.counters with validFrames := satInc s.par.counters.validFrames } } } →
    m = { l with par := { l.par with counters := { l.par.counters with mismatches := satInc s.par.counters.mismatches } } } →
    (s.ctl.state = .listen ∨ s.ctl.state = .synced → f.sender.toNat = s.address → PinsSound s →
      ∃ t, exec (.receptionEnd chars) s = .next t ∧ FaultEntered .duplicate .duplicate l t) ∧
    (∀ k, s.ctl.state = .synced → s.line.phase = .slots → s.line.slot = some k → f.sender.toNat ≠ s.address →
      f.sender.toNat < s.slots → f.sender.toNat < k → PinsSound s →
      ∃ t, exec (.receptionEnd chars) s = .next t ∧ SyncLost .syncLoss 0 l t) ∧
    (∀ k, s.ctl.state = .synced → s.line.phase = .slots → s.line.slot = some k → f.sender.toNat ≠ s.address →
      s.slots ≤ f.sender.toNat ∨ (k ≤ f.sender.toNat ∧ f.round ≠ s.line.round) →
      ∃ t, exec (.receptionEnd chars) s = .next t ∧ SlotEnded k 0 none m t) ∧
    (s.ctl.state = .synced → s.line.phase = .contention → f.sender.toNat ≠ s.address →
      exec (.receptionEnd chars) s = .next { m with line := contentionLine 0 s l.line })

/-- A slot in which nothing begins ends at its skip point, and one with an invalid reception at that reception's end: the next slot
starts, and after the last slot the round closes and the contention begins (R4, R7, R9, R10, R11). The own frame is gathered as the
blocks stood at the slot start point, from the oldest picture where that point is recognised a CT later (R15, R54, R55). The
model's choices: SKIP_POINT is taken while its timer runs (log 4) and in any other condition changes nothing (log 5), the order of
a close's records (log 8), the silence that ends a reception is counted in the new timers (log 25), point 1's notice before point
2's where the close sets LONE (log 29), and the moment of a picture by the model's clock (log 32). -/
def Obligations.SlotsFollowed : Prop :=
  (∀ s : State,
    (∀ k, s.ctl.state = .synced → s.line.phase = .slots → s.line.slotTimer ≠ none → s.line.rx = .idle → s.line.tx = .idle →
      s.line.slot = some k → ∃ t, exec .skipPoint s = .next t ∧ SlotEnded k 0 none s t) ∧
    (s.ctl.state ≠ .synced ∨ s.line.phase ≠ .slots ∨ s.line.slotTimer = none ∨ s.line.rx ≠ .idle ∨ s.line.tx ≠ .idle →
      exec .skipPoint s = .next s)) ∧
  (∀ (chars : List RxChar) (s l : State) (e : Nat) (p : Option SlotPicture), s.line.rx = .receiving → s.ctl.state = .synced →
    judge chars = none →
    l = { s with
      line := { s.line with rx := .idle, rxFrame := storedChars chars, pictures := [] }
      par := { s.par with counters := { s.par.counters with invalidFrames := satInc s.par.counters.invalidFrames } } } →
    e = (if reachedEnd chars then 0 else s.ct) →
    p = (if reachedEnd chars then none else s.line.pictures.getLast?) →
    (∀ k, s.line.phase = .slots → s.line.slot = some k →
      ∃ t, exec (.receptionEnd chars) s = .next t ∧ SlotEnded k e p l t) ∧
    (s.line.phase = .contention →
      exec (.receptionEnd chars) s = .next { l with line := contentionLine e s l.line }))

/-! ## Own frames (01) -/

/-- The gathered SLOT frame begins when its gap is over and the line is free; when it has completed, its query is SENT in this
round, its answer leaves the list, both runs are cleared and the next slot starts or the round closes (R15, R18, R134, R140). That
the sender says when the gap is over, that both commands change nothing where no frame is gathered or sent, and that no frame
begins while a command is held or a report waits, are the model's choices (logs 4, 5 and 7), and so are the order of a close's
records (log 8) and of the notices of points 1 and 2 where the close sets LONE (log 29). -/
def Obligations.OwnSlotFrame : Prop :=
  (∀ s : State,
    (s.ctl.state = .synced → s.line.tx = .gap → mayBegin s = true →
      exec .transmissionStart s =
        .next { s with line := { s.line with tx := .sending .slotFrame, gapTimer := none } }) ∧
    (s.ctl.state ≠ .synced ∨ s.line.tx ≠ .gap ∨ mayBegin s = false → exec .transmissionStart s = .next s) ∧
    (txSending s = false → exec .transmissionComplete s = .next s)) ∧
  (∀ (k : Nat) (s : State) (l : LineUnit) (q : QueryUnit), s.line.tx = .sending .slotFrame → s.line.slot = some k → QuerySound s →
    l = { s.line with
      tx := .idle, gapTimer := none, txFrame := [], txQuery := none, txAnswer := false, collisionRun := 0, driverRun := 0 } →
    q = { s.qry with
      queries := s.qry.queries.map fun x =>
        if s.line.txQuery = some x.tag ∧ x.state = .queued then
          { x with state := .sent, sendRound := s.line.round, waited := 0 } else x
      answers := if s.line.txAnswer then s.qry.answers.tail else s.qry.answers } →
    ∃ t, exec .transmissionComplete s = .next t ∧ SlotEnded k 0 none { s with line := l, qry := q } t)

/-- The opening: the contention timer's running out begins the OPEN of the next round at once, the cold-start timer's enters SYNCED
first, and the completed OPEN begins the round with slot 0 and counts in word 21 (R10, R12, R13, R27). The model's choices: the
sender says when a timer has run out (log 4), a command whose condition is not met changes nothing (log 5), no frame begins while
a command is held or a report waits (log 7), and the cold-start OPEN stands in the phase CONTENTION with no slot (log 16). -/
def Obligations.OwnOpenFrame : Prop :=
  ∀ (s : State) (l : LineUnit), l = { s.line with
      phase := .contention, contention := none, coldStart := none, slotTimer := none, slot := none
      tx := .sending .openFrame, gapTimer := none, txQuery := none, txAnswer := false
      txFrame := buildOpen ⟨s.settings.address, s.line.round + 1, s.ctl.signature, s.settings.slots⟩ } →
    (s.ctl.state = .synced → s.line.phase = .contention → s.line.contention ≠ none → s.line.tx = .idle → mayBegin s = true →
      exec .contentionTimeout s = .next { s with line := l }) ∧
    (s.ctl.state ≠ .synced ∨ s.line.phase ≠ .contention ∨ s.line.contention = none ∨ s.line.tx ≠ .idle ∨ mayBegin s = false →
      exec .contentionTimeout s = .next s) ∧
    (s.ctl.state = .listen → s.line.coldStart ≠ none → s.line.tx = .idle → mayBegin s = true → PinsSound s →
      ∃ t, exec .coldStart s = .next t ∧
        Recorded [⟨.state, 2, 0x0300, s.line.round⟩] s t ∧
        t = { s with
          ctl := { s.ctl with state := .synced, ageTimer := none, loneCounter := 0, heard := false }
          line := l, evq := t.evq, par := t.par }) ∧
    (s.ctl.state ≠ .listen ∨ s.line.coldStart = none ∨ s.line.tx ≠ .idle ∨ mayBegin s = false →
      exec .coldStart s = .next s) ∧
    (s.line.tx = .sending .openFrame →
      ∃ t, exec .transmissionComplete s = .next t ∧
        t.line = slotLine 0 0 none t { s.line with
          round := s.line.round + 1, tx := .idle, gapTimer := none, txFrame := [], txQuery := none, txAnswer := false
          collisionRun := 0, driverRun := 0 } ∧
        t = { s with
          line := t.line
          par := { s.par with counters := { s.par.counters with
            roundsOpened := satInc s.par.counters.roundsOpened } } })

/-- A collision stops the own frame, counts in word 20 and advances the collision run; the third in a row is a duplicate address,
taken at once or left beside a held command until COLLISION_LIMIT (R16, R18, R23, R31, R37). The model's choices: both commands
change nothing without an own frame or a report (log 5), the report waits in that way (log 7), the collided activity is followed on
into FAULT (log 22), a frame still in its gap is dropped there (log 23), and point 1's notice comes before point 2's (log 29). -/
def Obligations.CollisionsCounted : Prop :=
  (∀ (kind : FrameKind) (s c : State), s.line.tx = .sending kind → c = { s with
      line := { s.line with
        tx := .collided kind, gapTimer := none, txFrame := [], txQuery := none, txAnswer := false, driverRun := 0
        collisionRun := if s.line.collisionRun < 3 then s.line.collisionRun + 1 else s.line.collisionRun }
      par := { s.par with counters := { s.par.counters with collisions := satInc s.par.counters.collisions } } } →
    (s.line.collisionRun < 2 → exec .collision s = .next c) ∧
    (2 ≤ s.line.collisionRun → s.ctl.held ≠ none →
      exec .collision s = .next { c with line := { c.line with dupReport := true } }) ∧
    (2 ≤ s.line.collisionRun → s.ctl.held = none → s.ctl.state = .listen ∨ s.ctl.state = .synced → PinsSound s →
      ∃ t, exec .collision s = .next t ∧ FaultEntered .duplicate .duplicate c t) ∧
    (2 ≤ s.line.collisionRun → s.ctl.held = none → s.ctl.state = .config ∨ s.ctl.state = .fault →
      exec .collision s = .next c)) ∧
  (∀ s : State,
    (txSending s = false → exec .collision s = .next s) ∧
    (s.line.dupReport = false → exec .collisionLimit s = .next s) ∧
    (s.line.dupReport = true → s.ctl.state = .config ∨ s.ctl.state = .fault →
      exec .collisionLimit s = .next { s with line := { s.line with dupReport := false } }) ∧
    (s.line.dupReport = true → s.ctl.state = .listen ∨ s.ctl.state = .synced → PinsSound s →
      ∃ t, exec .collisionLimit s = .next t ∧
        FaultEntered .duplicate .duplicate { s with line := { s.line with dupReport := false } } t))

/-- A driver error ends the own frame and advances the driver run; a SLOT frame's slot runs on and an OPEN goes back to the full
contention wait; the second in a row is a driver fault, taken at once or left beside a held command until DRIVER_FAULT (R12, R17,
R18, R23, R32, R37). The model's choices: both commands change nothing without an own frame or a report (log 5), the report waits
in that way (log 7), a collided activity is followed on into FAULT (log 22), a frame still in its gap is dropped there (log 23),
the slot's skip timer has run on under the frame (log 26), and point 1's notice comes before point 2's (log 29). -/
def Obligations.DriverErrorsCounted : Prop :=
  (∀ (kind : FrameKind) (s : State) (l : LineUnit), s.line.tx = .sending kind →
    l = (let m := { s.line with
        tx := .idle, gapTimer := none, txFrame := [], txQuery := none, txAnswer := false, collisionRun := 0
        driverRun := if s.line.driverRun < 2 then s.line.driverRun + 1 else s.line.driverRun }
      if kind = .openFrame then contentionLine 0 s m else m) →
    (s.line.driverRun < 1 → exec .driverError s = .next { s with line := l }) ∧
    (1 ≤ s.line.driverRun → s.ctl.held ≠ none →
      exec .driverError s = .next { s with line := { l with driverReport := true } }) ∧
    (1 ≤ s.line.driverRun → s.ctl.held = none → s.ctl.state = .listen ∨ s.ctl.state = .synced → PinsSound s →
      ∃ t, exec .driverError s = .next t ∧ FaultEntered .driver .driver { s with line := l } t) ∧
    (1 ≤ s.line.driverRun → s.ctl.held = none → s.ctl.state = .config ∨ s.ctl.state = .fault →
      exec .driverError s = .next { s with line := l })) ∧
  (∀ s : State,
    (txSending s = false → exec .driverError s = .next s) ∧
    (s.line.driverReport = false → exec .driverFault s = .next s) ∧
    (s.line.driverReport = true → s.ctl.state = .config ∨ s.ctl.state = .fault →
      exec .driverFault s = .next { s with line := { s.line with driverReport := false } }) ∧
    (s.line.driverReport = true → s.ctl.state = .listen ∨ s.ctl.state = .synced → PinsSound s →
      ∃ t, exec .driverFault s = .next t ∧
        FaultEntered .driver .driver { s with line := { s.line with driverReport := false } } t))

/-- The end of the activity of a collided frame ends its slot, restarts the contention, or reloads the cold-start timer of a
station that is in LISTEN by then; it is not judged or counted (R12, R13, R16). The slot after the own one is another station's, so
no frame is gathered at this end. The model's choices: without a collided frame nothing changes (log 5), the order of a close's
records (log 8), the activity is followed over a change of station state (log 22), the CT of silence that shows the end has passed
on the new timers (log 25), and point 1's notice comes before point 2's where the close sets LONE (log 29). -/
def Obligations.CollidedActivityEnds : Prop :=
  ∀ (s l : State), l = { s with line := { s.line with tx := .idle } } →
    (∀ k, s.line.tx = .collided .slotFrame → s.ctl.state = .synced → s.line.slot = some k →
      ∃ t, exec .collidedFrameEnd s = .next t ∧ SlotEnded k s.ct none l t) ∧
    (s.line.tx = .collided .openFrame → s.ctl.state = .synced →
      exec .collidedFrameEnd s = .next { l with line := contentionLine s.ct s l.line }) ∧
    (∀ kind, s.line.tx = .collided kind → s.ctl.state = .listen →
      exec .collidedFrameEnd s = .next { l with line := { l.line with coldStart := some (s.coldStartWait - s.ct) } }) ∧
    (∀ kind, s.line.tx = .collided kind → s.ctl.state = .config ∨ s.ctl.state = .fault →
      exec .collidedFrameEnd s = .next l) ∧
    ((∀ kind, s.line.tx ≠ .collided kind) → exec .collidedFrameEnd s = .next s)

/-! ## Age steps and the round close (02, 04, 07) -/

/-- The age-step timer gives an age step in LISTEN and FAULT: a fresh entry spends its mark, any other ages by one up to 15, and a
LIVE or HELD entry at its age limit becomes STALE, with the ENTRY records and the one notification of the step; ENTRY_STALE does the
last for one place (R41, R68, R70, R71, R73). AGE_STEP_TIMER taken whatever time is left on its timer (log 4), ENTRY_STALE as a row
of its own (log 6), and both rows changing nothing where their condition is not met (log 5), are the model's choices. -/
def Obligations.AgeSteps : Prop :=
  (∀ s : State,
    (s.ctl.state = .listen ∨ s.ctl.state = .fault → s.ctl.ageTimer ≠ none →
      ∃ t, exec .ageStepTimer s = .next t ∧
        t.ctl = { s.ctl with ageTimer := some (40 * s.slots * s.ct) } ∧
        t.mir = s.mir.map (Option.map agedEntry) ∧
        t.cond = { s.cond with notices := s.cond.notices ++ changedNotice agedEntry s.mir } ∧
        Recorded (entryRecords agedEntry s.line.round s.mir) s t ∧
        t = { s with ctl := t.ctl, mir := t.mir, cond := t.cond, evq := t.evq, par := t.par }) ∧
    (s.ctl.state = .config ∨ s.ctl.state = .synced ∨ s.ctl.ageTimer = none → exec .ageStepTimer s = .next s)) ∧
  (∀ (place : Fin 64) (s : State),
    (∀ e, s.ctl.state ≠ .config → entryAt s.mir place.val = some e → e.status = .live ∨ e.status = .held →
      e.ageLimit.toNat ≤ e.age →
      ∃ t, exec (.entryStale place) s = .next t ∧
        Recorded (if e.report then [⟨.entry, BitVec.ofNat 8 place.val,
            mkWord (3 ||| flagAt e.notOffered 4) (entryCode e.status), s.line.round⟩] else []) s t ∧
        t = { s with
          mir := s.mir.set place.val (some { e with status := .stale })
          cond := { s.cond with notices := s.cond.notices ++ [.entries [place.val]] }
          evq := t.evq, par := t.par }) ∧
    (s.ctl.state = .config ∨ entryAt s.mir place.val = none ∨
      (∃ e, entryAt s.mir place.val = some e ∧ ((e.status ≠ .live ∧ e.status ≠ .held) ∨ e.age < e.ageLimit.toNat)) →
      exec (.entryStale place) s = .next s))

/-- QUERY_TIMEOUT makes every SENT query whose rounds waited have reached Q DONE with outcome TIMEOUT and value 0000h; LONE sets the
hold reason when the lone counter is at a lone limit of 1 or more (R39, R40, R43, R50, R56, R135, R141). That they do so as rows of
their own, and nothing otherwise, is the model's choice (log 6), and so is point 1's notice before point 2's (log 29). -/
def Obligations.RoundLimits : Prop :=
  ∀ s : State,
    (s.ctl.state = .synced → ∃ t, exec .queryTimeout s = .next t ∧
      t.qry = { s.qry with queries := s.qry.queries.map fun q =>
        if q.state = .sent ∧ s.settings.timeout.toNat ≤ q.waited then
          { q with state := .done, outcome := some .timeout, result := 0 } else q } ∧
      Recorded (queryRecords (fun q => decide (q.state = .sent ∧ s.settings.timeout.toNat ≤ q.waited)) .timeout s.line.round
        s.qry.queries) s t ∧
      t = { s with qry := t.qry, evq := t.evq, par := t.par }) ∧
    (s.ctl.state ≠ .synced → exec .queryTimeout s = .next s) ∧
    (s.ctl.state = .synced → 0 < s.settings.loneLimit.toNat → s.ctl.loneCounter = s.settings.loneLimit.toNat → PinsSound s →
      ∃ t, exec .lone s = .next t ∧
        t.ctl = { s.ctl with holds := ⟨s.ctl.holds.host, true⟩, driveMode := .safe } ∧
        DriveTaken [] s t ∧
        Recorded (if s.ctl.holds.lone then []
          else [⟨.hold, if s.ctl.holds.host then 3 else 2, if s.ctl.holds.host then 1 else 0, s.line.round⟩]) s t ∧
        t.line = s.line ∧ t.mir = s.mir ∧ t.qry = s.qry ∧ t.port = s.port ∧ t.time = s.time) ∧
    (s.ctl.state ≠ .synced ∨ s.settings.loneLimit.toNat = 0 ∨ s.ctl.loneCounter ≠ s.settings.loneLimit.toNat →
      exec .lone s = .next s)

/-! ## Inputs, conditions and outputs (03, 05, 06) -/

/-- A changed raw level cancels, starts or leaves the filter timer of its line, or with F of 0 changes the filtered level at once;
filter timers that run out at one tick change their lines together. Point 0 is formed once from the filtered levels, announced once
when it changes outside CONFIG, and nothing else changes (R45, R46, R56). The model's choices: an expiry is taken whatever time is left
on its timer (log 4), and INPUT_CHANGE to the level the line has changes nothing, and a differing level with the timer running, which
R45 says does not arise, the raw level only (log 5). -/
def Obligations.InputFiltering : Prop :=
  (∀ (line : Fin 16) (level : Bool) (s : State), s.pts.points.length = 8 → s.pts.filterTimers.length = 16 →
    (bitOf s.pts.raw line.val = level → exec (.inputChange line level) s = .next s) ∧
    (bitOf s.pts.raw line.val ≠ level →
      let raw := putBit s.pts.raw line.val level
      (bitOf s.pts.filtered line.val = level →
        exec (.inputChange line level) s = .next { s with
          pts := { s.pts with raw := raw, filterTimers := s.pts.filterTimers.set line.val .idle } }) ∧
      (bitOf s.pts.filtered line.val ≠ level → isRunning (timerAt s.pts.filterTimers line.val) = true →
        exec (.inputChange line level) s = .next { s with pts := { s.pts with raw := raw } }) ∧
      (bitOf s.pts.filtered line.val ≠ level → isRunning (timerAt s.pts.filterTimers line.val) = false →
        s.pts.filterTime ≠ 0 →
        exec (.inputChange line level) s = .next { s with
          pts := { s.pts with
            raw := raw
            filterTimers := s.pts.filterTimers.set line.val (startTimer level s.pts.filterTime.toNat s) } }) ∧
      (∀ point : Point, bitOf s.pts.filtered line.val ≠ level → isRunning (timerAt s.pts.filterTimers line.val) = false →
        s.pts.filterTime = 0 → point = ⟨putBit s.pts.filtered line.val level ^^^ s.pts.invert, .good⟩ →
        exec (.inputChange line level) s = .next { s with
          pts := { s.pts with
            raw := raw, filtered := putBit s.pts.filtered line.val level, points := s.pts.points.set 0 point }
          cond := { s.cond with
            notices := if pointAt s 0 = point ∨ s.ctl.state = .config
              then s.cond.notices else s.cond.notices ++ [.point 0] } }))) ∧
  (∀ (lines : Word) (s : State), s.pts.points.length = 8 → s.pts.filterTimers.length = 16 →
    ∃ (filtered : Word) (timers : List Timer) (point : Point), point = ⟨filtered ^^^ s.pts.invert, .good⟩ ∧
      timers.length = 16 ∧
      (∀ i b n, i < 16 → bitOf lines i = true → timerAt s.pts.filterTimers i = .running b n →
        bitOf filtered i = b ∧ timerAt timers i = .idle) ∧
      (∀ i, i < 16 → bitOf lines i = false ∨ timerAt s.pts.filterTimers i = .idle →
        bitOf filtered i = bitOf s.pts.filtered i ∧ timerAt timers i = timerAt s.pts.filterTimers i) ∧
      exec (.filterExpiry lines) s = .next { s with
        pts := { s.pts with filtered := filtered, filterTimers := timers, points := s.pts.points.set 0 point }
        cond := { s.cond with
          notices := if pointAt s 0 = point ∨ s.ctl.state = .config
            then s.cond.notices else s.cond.notices ++ [.point 0] } })

/-- An evaluation pools the counted bits of all terms by the mode, and takes the policy's result when some term is unknown: a term
that counts a bit is unknown when its entry is NEVER or STALE, or is HELD, or its point is HELD, with held-is-unknown set
(R84, R85, R86, R87). -/
def Obligations.ConditionEvaluation : Prop :=
  ∀ (s : State) (k : Nat) (d : Condition),
    (evaluated s d = true ↔ match d.mode with
      | .all => ∀ t ∈ d.terms, ∀ i < 16, bitOf t.mask i = true → bitOf (refValue s t.ref) i = bitOf t.pattern i
      | .any => ∃ t ∈ d.terms, ∃ i < 16, bitOf t.mask i = true ∧ bitOf (refValue s t.ref) i = bitOf t.pattern i
      | .noneOf => ∀ t ∈ d.terms, ∀ i < 16, bitOf t.mask i = true → bitOf (refValue s t.ref) i ≠ bitOf t.pattern i
      | .notAll => ∃ t ∈ d.terms, ∃ i < 16, bitOf t.mask i = true ∧ bitOf (refValue s t.ref) i ≠ bitOf t.pattern i) ∧
    (allKnown s d = true ↔ ∀ t ∈ d.terms, t.mask = 0 ∨ match t.ref with
      | .point p => (pointAt s p.val).quality = .good ∨ d.heldUnknown = false
      | .entry i => ∃ e, entryAt s.mir i.val = some e ∧
          (e.status = .live ∨ (e.status = .held ∧ d.heldUnknown = false))) ∧
    (allKnown s d = true → rawResult s k d = evaluated s d) ∧
    (allKnown s d = false → rawResult s k d = match d.policy with
      | .false => false
      | .true => true
      | .keep => bitOf s.cond.raw k
      | .value => evaluated s d)

/-- A pass takes the oldest notice, whole: the conditions it concerns and those that join it by a change of point 2 within it are
evaluated once each, ascending, over the station as the conditions below have left it (R88 to R93, R97). In particular a condition
that reads neither the own pins nor the own conditions is evaluated exactly when the notice concerns it, and keeps its record else.
That a pass is a step of its own is the model's choice (log 10). -/
def Obligations.ConditionPassTaken : Prop :=
  ∀ s : State,
    (s.ctl.state = .config ∨ s.cond.notices = [] → exec .conditionPass s = .next s) ∧
    (∀ n rest, s.ctl.state ≠ .config → s.cond.notices = n :: rest →
      ∃ t, exec .conditionPass s = .next t ∧
        PassTaken (fun d => ∃ x ∈ d.terms, Concerns n x) { s with cond := { s.cond with notices := rest } } t) ∧
    (∀ n rest, s.ctl.state ≠ .config → s.cond.notices = n :: rest → ConditionsSound s →
      ∃ t, exec .conditionPass s = .next t ∧
        (∃ l, t.cond.notices = rest ++ l) ∧ t.cond.defs = s.cond.defs ∧
        t.line = s.line ∧ t.ctl = s.ctl ∧ t.mir = s.mir ∧ t.qry = s.qry ∧ t.port = s.port ∧ SameStore s t ∧
        (∀ p, p ≠ 1 → p ≠ 2 → pointAt t p = pointAt s p) ∧
        ∀ k d, k < 16 → condAt s.cond k = some d →
          (∀ x ∈ d.terms, x.ref ≠ .point 1 ∧ x.ref ≠ .point 2) →
          ((∃ x ∈ d.terms, concernsTerm n x = true) →
            bitOf t.cond.raw k = rawResult s k d ∧ bitOf t.cond.sure k = allKnown s d ∧
            (match timerAt s.cond.timers k with
              | .idle =>
                if rawResult s k d = bitOf s.cond.confirmed k then
                  bitOf t.cond.confirmed k = bitOf s.cond.confirmed k ∧ timerAt t.cond.timers k = .idle
                else if confirmTime d (rawResult s k d) = 0 then
                  bitOf t.cond.confirmed k = rawResult s k d ∧ timerAt t.cond.timers k = .idle
                else bitOf t.cond.confirmed k = bitOf s.cond.confirmed k ∧
                  timerAt t.cond.timers k = startTimer (rawResult s k d) (confirmTime d (rawResult s k d)) s
              | .running b m => bitOf t.cond.confirmed k = bitOf s.cond.confirmed k ∧
                timerAt t.cond.timers k =
                  (if rawResult s k d = bitOf s.cond.confirmed k then .idle else .running b m))) ∧
          ((∀ x ∈ d.terms, concernsTerm n x = false) →
            bitOf t.cond.raw k = bitOf s.cond.raw k ∧ bitOf t.cond.sure k = bitOf s.cond.sure k ∧
            bitOf t.cond.confirmed k = bitOf s.cond.confirmed k ∧
            timerAt t.cond.timers k = timerAt s.cond.timers k))

/-- A confirm timer's expiry confirms the result it ran towards: the CONDITION record with EXPIRY, bit k of point 2, the source
copy, and the rules of the lines whose source it is, by their kinds, with their LATCH records; the change of point 2 is announced
(R94, R96, R105 to R110, R118), after a change of point 1 by the model's choice (log 29). The expiry is taken whatever time is left
on the timer, and that of an idle timer or of an undefined condition changes nothing (log 4). -/
def Obligations.ConfirmTimerExpires : Prop :=
  ∀ (k : Fin 16) (s : State),
    (timerAt s.cond.timers k.val = .idle ∨ condAt s.cond k.val = none → exec (.confirmExpiry k) s = .next s) ∧
    (∀ b n d, timerAt s.cond.timers k.val = .running b n → condAt s.cond k.val = some d →
      ∃ m, ConfirmedChange k.val d b true { s with cond := { s.cond with timers := s.cond.timers.set k.val .idle } } m ∧
        exec (.confirmExpiry k) s = .next (if s.ctl.state = .config then m
          else { m with cond := { m.cond with notices := m.cond.notices ++ [.point2Bit k.val] } }))

/-- A pulse timer's expiry completes and takes its line's level to 0, the pins and point 1 follow, point 1 announced once when it
changes outside CONFIG, and nothing else changes; an idle timer's expiry does not happen (R48, R56, R108). That the expiry is taken
whatever time is left on the timer is the model's choice (log 4). -/
def Obligations.PulseTimerExpires : Prop :=
  ∀ (i : Fin 16) (s : State),
    (timerAt s.out.pulse i.val = .idle → exec (.pulseExpiry i) s = .next s) ∧
    (∀ b n, timerAt s.out.pulse i.val = .running b n → s.pts.points.length = 8 →
      pointAt s 1 = ⟨s.out.pins, .good⟩ →
      ∃ t, exec (.pulseExpiry i) s = .next t ∧
        t.out = { s.out with
          level := putBit s.out.level i.val false, pulse := s.out.pulse.set i.val .idle, pins := t.out.pins } ∧
        t.out.pins = shownPins t.out ∧
        t = { s with
          out := t.out
          pts := { s.pts with points := s.pts.points.set 1 ⟨t.out.pins, .good⟩ }
          cond := { s.cond with
            notices := if t.out.pins = s.out.pins ∨ s.ctl.state = .config
              then s.cond.notices else s.cond.notices ++ [.point 1] } })

/-! ## Hardware reset and frames (01, 11) -/

/-- HARDWARE_RESET leaves every block in its condition for hardware reset, given whole for every level of the input lines, from any
state, and that condition is sound (R21, R22, R47, R57, R83, R120, R156, R159, R201), LTX at "H" and LDE at "L", the counters and
station words at 0. State.reset is that condition with every input line at "L" (the model's choice, log 17); its timebase phase,
report fields, byte read and pictures are the model's own (logs 3, 7, 18 and 32). -/
def Obligations.HardwareResetEffect : Prop :=
  (Sound State.reset ∧ ∀ s : State, exec (.hardwareReset 0) s = .next { State.reset with pending := s.pending }) ∧
  ∀ (inputs : Word) (s t : State),
    t = {
      pending := s.pending
      line := {
        round := 0, slot := none, phase := .off, contention := none, coldStart := none, slotTimer := none, gapTimer := none
        rx := .idle, rxFrame := [], pictures := [], tx := .idle, txFrame := [], txQuery := none, txAnswer := false
        collisionRun := 0, driverRun := 0, foreignCount := 0, dupReport := false, driverReport := false }
      ctl := {
        state := .config, faultCause := .none, holds := ⟨false, false⟩, loneCounter := 0, heard := false, ageTimer := none
        driveMode := .safe, held := none, edited := ⟨0, 0, 0, 0, 0, 0, 0, 0, 0⟩, editedSet := false, committed := none
        signature := 0 }
      pts := {
        points := [⟨inputs, .good⟩, ⟨0, .good⟩] ++ List.replicate 6 ⟨0, .held⟩, raw := inputs, filtered := inputs
        filterTimers := List.replicate 16 .idle, filterTime := 0, invert := 0, publish := none, driveMode := .safe }
      mir := List.replicate 64 none
      cond := {
        defs := List.replicate 16 none, raw := 0, sure := 0, confirmed := 0, timers := List.replicate 16 .idle, notices := [] }
      out := {
        edited := List.replicate 16 none, active := List.replicate 16 none, level := 0, latched := 0
        pulse := List.replicate 16 .idle, hostLevel := 0, copy := 0, parked := 0, mode := .config, pins := 0 }
      qry := ⟨[], 0, []⟩
      par := ⟨List.replicate 16 0, 0, ⟨0, 0, 0, 0, 0, 0, 0, 0, 0, 0, 0, 0⟩⟩
      port := {
        phase := .ready, buf := [], len := none, reply := [], pos := 0, perr := false, discard := false, readData := none }
      evq := []
      time := ⟨0⟩ } →
    exec (.hardwareReset inputs) s = .next t ∧ Sound t ∧ lde t = false ∧ hatn t = false ∧ (∀ n, ltx t n = true) ∧
    (∀ i, i ≤ 31 → i ≠ 30 → paramWord t i = 0)

/-- Every SLOT and OPEN frame the station can send is read back whole by the judging of a reception that carries its characters:
no field and no item is lost, and the CRC agrees (R4, R6, R174, R196, R197). -/
def Obligations.FramesReadBack : Prop :=
  (∀ f : SlotFrame, f.fits → judge ((buildSlot f).map fun b => ⟨b, false⟩) = some (.slot f)) ∧
  (∀ f : OpenFrame, f.sender.toNat < 32 → judge ((buildOpen f).map fun b => ⟨b, false⟩) = some (.opening f))

/-! ## Invariants of every step, from every state that meets them -/

/-- The event queue holds at most 32 records, 32 only with a LOST record newest, and every LOST record stands for a drop (R188, R189). -/
def Obligations.QueueStaysSound : Prop :=
  ∀ s t : State, QueueSound s → step s = .next t → QueueSound t

/-- The mirror table keeps 64 places of sound entries: LIVE and HELD only below the age limit, nothing carried while NEVER, every
entry NEVER in CONFIG (R58, R61, R68, R75). -/
def Obligations.MirrorStaysSound : Prop :=
  ∀ s t : State, MirrorSound s → step s = .next t → MirrorSound t

/-- The query unit keeps at most four queries with different tags and at most four answers; QUEUED and SENT queries and answers stand
only while SYNCED (R129, R131, R140, R142). -/
def Obligations.QueriesStaySound : Prop :=
  ∀ s t : State, QuerySound s → step s = .next t → QuerySound t

/-- A condition's confirm timer runs exactly towards a raw result that differs from the confirmed one, and point 2 shows the
confirmed results; every line's level agrees with its rule and its source copy (R93, R96, R101, R106 to R108). That no notice is
held in CONFIG is the model's reading (log 11). -/
def Obligations.ConditionsAndOutputsStaySound : Prop :=
  ∀ s t : State, step s = .next t → (ConditionsSound s → ConditionsSound t) ∧ (OutputsSound s → OutputsSound t)

/-- The line phase, the fault cause, the settings and the transmitter agree with the station state, and with them the drive mode in
every block, the pins and the points 0 to 2 (R21, R32, R40, R44, R112, R159). The model's: no own frame while a report waits (log
7), the phase of a cold start's OPEN (log 16), a collided activity is not received (log 22), a frame still in its gap is gone with
SYNCED (log 23), and the pictures held exactly while a reception occupies a slot (log 32). -/
def Obligations.StationAndPinsStaySound : Prop :=
  ∀ s t : State, StationSound s → step s = .next t → StationSound t ∧ (PinsSound s → PinsSound t)

/-- The port keeps its form: no reply over 32 bytes, PERR clear in FILLING, a command held exactly in EXECUTING (R37, R146, R153).
EXECUTING only while a command is held is the model's choice (log 13), and so are a read position of 0 without a reply and no length
received without a message (log 30). -/
def Obligations.PortStaysSound : Prop :=
  ∀ s t : State, PortSound s → step s = .next t → PortSound t

/-! ## Rules of the whole machine -/

/-- The station state moves only as chapter 02 says: only the host's commands and the hardware reset enter CONFIG or leave CONFIG or
FAULT, and they lead to CONFIG or LISTEN; the line takes LISTEN to SYNCED or FAULT and SYNCED to LISTEN or FAULT (R22 to R36). -/
def Obligations.StationStateMoves : Prop :=
  ∀ (c : Instr) (s t : State), exec c s = .next t → t.ctl.state ≠ s.ctl.state →
    (hostAct c = true → t.ctl.state = .config ∨ t.ctl.state = .listen) ∧
    (hostAct c = false → (s.ctl.state = .listen ∧ (t.ctl.state = .synced ∨ t.ctl.state = .fault)) ∨
      (s.ctl.state = .synced ∧ (t.ctl.state = .listen ∨ t.ctl.state = .fault)))

/-- Outside CONFIG nothing but a hardware reset changes a definition: station settings, signature, the definition of any entry,
condition or line rule, the write-permit mask (R58, R80, R103, R157). The discard mark is set in EXECUTING only, as `PortSound` keeps
it (R151): one row writes a whole message, and a stray mark could end its first command in READY (log 12). -/
def Obligations.DefinitionsStandOutsideConfig : Prop :=
  ∀ (c : Instr) (s t : State), exec c s = .next t → s.ctl.state ≠ .config → (∀ inputs, c ≠ .hardwareReset inputs) →
    (s.port.discard = true → s.port.phase = .executing) →
    t.ctl.edited = s.ctl.edited ∧ t.ctl.editedSet = s.ctl.editedSet ∧ t.ctl.committed = s.ctl.committed ∧
    t.ctl.signature = s.ctl.signature ∧ t.cond.defs = s.cond.defs ∧ t.out.edited = s.out.edited ∧
    t.out.active = s.out.active ∧ t.par.permit = s.par.permit ∧
    t.mir.map (Option.map fun e => (e.source, e.point, e.ageLimit, e.report)) =
      s.mir.map (Option.map fun e => (e.source, e.point, e.ageLimit, e.report)) ∧
    t.pts.filterTime = s.pts.filterTime ∧ t.pts.invert = s.pts.invert ∧ t.pts.publish = s.pts.publish
end

