-- ==== Sys2Proof/Laws/State.lean ====
section
/-! SUPPORT. One lemma per field for each plain update of the state, so that no proof unfolds a record update. -/

namespace Sys2Proof.Machine

/-! ### setPending -/

@[simp] theorem setPending_pending (x) (s : State) : (setPending x s).pending = x := rfl
@[simp] theorem setPending_line (x) (s : State) : (setPending x s).line = s.line := rfl
@[simp] theorem setPending_ctl (x) (s : State) : (setPending x s).ctl = s.ctl := rfl
@[simp] theorem setPending_pts (x) (s : State) : (setPending x s).pts = s.pts := rfl
@[simp] theorem setPending_mir (x) (s : State) : (setPending x s).mir = s.mir := rfl
@[simp] theorem setPending_cond (x) (s : State) : (setPending x s).cond = s.cond := rfl
@[simp] theorem setPending_out (x) (s : State) : (setPending x s).out = s.out := rfl
@[simp] theorem setPending_qry (x) (s : State) : (setPending x s).qry = s.qry := rfl
@[simp] theorem setPending_par (x) (s : State) : (setPending x s).par = s.par := rfl
@[simp] theorem setPending_port (x) (s : State) : (setPending x s).port = s.port := rfl
@[simp] theorem setPending_evq (x) (s : State) : (setPending x s).evq = s.evq := rfl
@[simp] theorem setPending_time (x) (s : State) : (setPending x s).time = s.time := rfl

/-! ### setLine -/

@[simp] theorem setLine_pending (x) (s : State) : (setLine x s).pending = s.pending := rfl
@[simp] theorem setLine_line (x) (s : State) : (setLine x s).line = x := rfl
@[simp] theorem setLine_ctl (x) (s : State) : (setLine x s).ctl = s.ctl := rfl
@[simp] theorem setLine_pts (x) (s : State) : (setLine x s).pts = s.pts := rfl
@[simp] theorem setLine_mir (x) (s : State) : (setLine x s).mir = s.mir := rfl
@[simp] theorem setLine_cond (x) (s : State) : (setLine x s).cond = s.cond := rfl
@[simp] theorem setLine_out (x) (s : State) : (setLine x s).out = s.out := rfl
@[simp] theorem setLine_qry (x) (s : State) : (setLine x s).qry = s.qry := rfl
@[simp] theorem setLine_par (x) (s : State) : (setLine x s).par = s.par := rfl
@[simp] theorem setLine_port (x) (s : State) : (setLine x s).port = s.port := rfl
@[simp] theorem setLine_evq (x) (s : State) : (setLine x s).evq = s.evq := rfl
@[simp] theorem setLine_time (x) (s : State) : (setLine x s).time = s.time := rfl

/-! ### setCtl -/

@[simp] theorem setCtl_pending (x) (s : State) : (setCtl x s).pending = s.pending := rfl
@[simp] theorem setCtl_line (x) (s : State) : (setCtl x s).line = s.line := rfl
@[simp] theorem setCtl_ctl (x) (s : State) : (setCtl x s).ctl = x := rfl
@[simp] theorem setCtl_pts (x) (s : State) : (setCtl x s).pts = s.pts := rfl
@[simp] theorem setCtl_mir (x) (s : State) : (setCtl x s).mir = s.mir := rfl
@[simp] theorem setCtl_cond (x) (s : State) : (setCtl x s).cond = s.cond := rfl
@[simp] theorem setCtl_out (x) (s : State) : (setCtl x s).out = s.out := rfl
@[simp] theorem setCtl_qry (x) (s : State) : (setCtl x s).qry = s.qry := rfl
@[simp] theorem setCtl_par (x) (s : State) : (setCtl x s).par = s.par := rfl
@[simp] theorem setCtl_port (x) (s : State) : (setCtl x s).port = s.port := rfl
@[simp] theorem setCtl_evq (x) (s : State) : (setCtl x s).evq = s.evq := rfl
@[simp] theorem setCtl_time (x) (s : State) : (setCtl x s).time = s.time := rfl

/-! ### setPts -/

@[simp] theorem setPts_pending (x) (s : State) : (setPts x s).pending = s.pending := rfl
@[simp] theorem setPts_line (x) (s : State) : (setPts x s).line = s.line := rfl
@[simp] theorem setPts_ctl (x) (s : State) : (setPts x s).ctl = s.ctl := rfl
@[simp] theorem setPts_pts (x) (s : State) : (setPts x s).pts = x := rfl
@[simp] theorem setPts_mir (x) (s : State) : (setPts x s).mir = s.mir := rfl
@[simp] theorem setPts_cond (x) (s : State) : (setPts x s).cond = s.cond := rfl
@[simp] theorem setPts_out (x) (s : State) : (setPts x s).out = s.out := rfl
@[simp] theorem setPts_qry (x) (s : State) : (setPts x s).qry = s.qry := rfl
@[simp] theorem setPts_par (x) (s : State) : (setPts x s).par = s.par := rfl
@[simp] theorem setPts_port (x) (s : State) : (setPts x s).port = s.port := rfl
@[simp] theorem setPts_evq (x) (s : State) : (setPts x s).evq = s.evq := rfl
@[simp] theorem setPts_time (x) (s : State) : (setPts x s).time = s.time := rfl

/-! ### setMir -/

@[simp] theorem setMir_pending (x) (s : State) : (setMir x s).pending = s.pending := rfl
@[simp] theorem setMir_line (x) (s : State) : (setMir x s).line = s.line := rfl
@[simp] theorem setMir_ctl (x) (s : State) : (setMir x s).ctl = s.ctl := rfl
@[simp] theorem setMir_pts (x) (s : State) : (setMir x s).pts = s.pts := rfl
@[simp] theorem setMir_mir (x) (s : State) : (setMir x s).mir = x := rfl
@[simp] theorem setMir_cond (x) (s : State) : (setMir x s).cond = s.cond := rfl
@[simp] theorem setMir_out (x) (s : State) : (setMir x s).out = s.out := rfl
@[simp] theorem setMir_qry (x) (s : State) : (setMir x s).qry = s.qry := rfl
@[simp] theorem setMir_par (x) (s : State) : (setMir x s).par = s.par := rfl
@[simp] theorem setMir_port (x) (s : State) : (setMir x s).port = s.port := rfl
@[simp] theorem setMir_evq (x) (s : State) : (setMir x s).evq = s.evq := rfl
@[simp] theorem setMir_time (x) (s : State) : (setMir x s).time = s.time := rfl

/-! ### setCond -/

@[simp] theorem setCond_pending (x) (s : State) : (setCond x s).pending = s.pending := rfl
@[simp] theorem setCond_line (x) (s : State) : (setCond x s).line = s.line := rfl
@[simp] theorem setCond_ctl (x) (s : State) : (setCond x s).ctl = s.ctl := rfl
@[simp] theorem setCond_pts (x) (s : State) : (setCond x s).pts = s.pts := rfl
@[simp] theorem setCond_mir (x) (s : State) : (setCond x s).mir = s.mir := rfl
@[simp] theorem setCond_cond (x) (s : State) : (setCond x s).cond = x := rfl
@[simp] theorem setCond_out (x) (s : State) : (setCond x s).out = s.out := rfl
@[simp] theorem setCond_qry (x) (s : State) : (setCond x s).qry = s.qry := rfl
@[simp] theorem setCond_par (x) (s : State) : (setCond x s).par = s.par := rfl
@[simp] theorem setCond_port (x) (s : State) : (setCond x s).port = s.port := rfl
@[simp] theorem setCond_evq (x) (s : State) : (setCond x s).evq = s.evq := rfl
@[simp] theorem setCond_time (x) (s : State) : (setCond x s).time = s.time := rfl

/-! ### setOut -/

@[simp] theorem setOut_pending (x) (s : State) : (setOut x s).pending = s.pending := rfl
@[simp] theorem setOut_line (x) (s : State) : (setOut x s).line = s.line := rfl
@[simp] theorem setOut_ctl (x) (s : State) : (setOut x s).ctl = s.ctl := rfl
@[simp] theorem setOut_pts (x) (s : State) : (setOut x s).pts = s.pts := rfl
@[simp] theorem setOut_mir (x) (s : State) : (setOut x s).mir = s.mir := rfl
@[simp] theorem setOut_cond (x) (s : State) : (setOut x s).cond = s.cond := rfl
@[simp] theorem setOut_out (x) (s : State) : (setOut x s).out = x := rfl
@[simp] theorem setOut_qry (x) (s : State) : (setOut x s).qry = s.qry := rfl
@[simp] theorem setOut_par (x) (s : State) : (setOut x s).par = s.par := rfl
@[simp] theorem setOut_port (x) (s : State) : (setOut x s).port = s.port := rfl
@[simp] theorem setOut_evq (x) (s : State) : (setOut x s).evq = s.evq := rfl
@[simp] theorem setOut_time (x) (s : State) : (setOut x s).time = s.time := rfl

/-! ### setQry -/

@[simp] theorem setQry_pending (x) (s : State) : (setQry x s).pending = s.pending := rfl
@[simp] theorem setQry_line (x) (s : State) : (setQry x s).line = s.line := rfl
@[simp] theorem setQry_ctl (x) (s : State) : (setQry x s).ctl = s.ctl := rfl
@[simp] theorem setQry_pts (x) (s : State) : (setQry x s).pts = s.pts := rfl
@[simp] theorem setQry_mir (x) (s : State) : (setQry x s).mir = s.mir := rfl
@[simp] theorem setQry_cond (x) (s : State) : (setQry x s).cond = s.cond := rfl
@[simp] theorem setQry_out (x) (s : State) : (setQry x s).out = s.out := rfl
@[simp] theorem setQry_qry (x) (s : State) : (setQry x s).qry = x := rfl
@[simp] theorem setQry_par (x) (s : State) : (setQry x s).par = s.par := rfl
@[simp] theorem setQry_port (x) (s : State) : (setQry x s).port = s.port := rfl
@[simp] theorem setQry_evq (x) (s : State) : (setQry x s).evq = s.evq := rfl
@[simp] theorem setQry_time (x) (s : State) : (setQry x s).time = s.time := rfl

/-! ### setPar -/

@[simp] theorem setPar_pending (x) (s : State) : (setPar x s).pending = s.pending := rfl
@[simp] theorem setPar_line (x) (s : State) : (setPar x s).line = s.line := rfl
@[simp] theorem setPar_ctl (x) (s : State) : (setPar x s).ctl = s.ctl := rfl
@[simp] theorem setPar_pts (x) (s : State) : (setPar x s).pts = s.pts := rfl
@[simp] theorem setPar_mir (x) (s : State) : (setPar x s).mir = s.mir := rfl
@[simp] theorem setPar_cond (x) (s : State) : (setPar x s).cond = s.cond := rfl
@[simp] theorem setPar_out (x) (s : State) : (setPar x s).out = s.out := rfl
@[simp] theorem setPar_qry (x) (s : State) : (setPar x s).qry = s.qry := rfl
@[simp] theorem setPar_par (x) (s : State) : (setPar x s).par = x := rfl
@[simp] theorem setPar_port (x) (s : State) : (setPar x s).port = s.port := rfl
@[simp] theorem setPar_evq (x) (s : State) : (setPar x s).evq = s.evq := rfl
@[simp] theorem setPar_time (x) (s : State) : (setPar x s).time = s.time := rfl

/-! ### setPort -/

@[simp] theorem setPort_pending (x) (s : State) : (setPort x s).pending = s.pending := rfl
@[simp] theorem setPort_line (x) (s : State) : (setPort x s).line = s.line := rfl
@[simp] theorem setPort_ctl (x) (s : State) : (setPort x s).ctl = s.ctl := rfl
@[simp] theorem setPort_pts (x) (s : State) : (setPort x s).pts = s.pts := rfl
@[simp] theorem setPort_mir (x) (s : State) : (setPort x s).mir = s.mir := rfl
@[simp] theorem setPort_cond (x) (s : State) : (setPort x s).cond = s.cond := rfl
@[simp] theorem setPort_out (x) (s : State) : (setPort x s).out = s.out := rfl
@[simp] theorem setPort_qry (x) (s : State) : (setPort x s).qry = s.qry := rfl
@[simp] theorem setPort_par (x) (s : State) : (setPort x s).par = s.par := rfl
@[simp] theorem setPort_port (x) (s : State) : (setPort x s).port = x := rfl
@[simp] theorem setPort_evq (x) (s : State) : (setPort x s).evq = s.evq := rfl
@[simp] theorem setPort_time (x) (s : State) : (setPort x s).time = s.time := rfl

/-! ### setEvq -/

@[simp] theorem setEvq_pending (x) (s : State) : (setEvq x s).pending = s.pending := rfl
@[simp] theorem setEvq_line (x) (s : State) : (setEvq x s).line = s.line := rfl
@[simp] theorem setEvq_ctl (x) (s : State) : (setEvq x s).ctl = s.ctl := rfl
@[simp] theorem setEvq_pts (x) (s : State) : (setEvq x s).pts = s.pts := rfl
@[simp] theorem setEvq_mir (x) (s : State) : (setEvq x s).mir = s.mir := rfl
@[simp] theorem setEvq_cond (x) (s : State) : (setEvq x s).cond = s.cond := rfl
@[simp] theorem setEvq_out (x) (s : State) : (setEvq x s).out = s.out := rfl
@[simp] theorem setEvq_qry (x) (s : State) : (setEvq x s).qry = s.qry := rfl
@[simp] theorem setEvq_par (x) (s : State) : (setEvq x s).par = s.par := rfl
@[simp] theorem setEvq_port (x) (s : State) : (setEvq x s).port = s.port := rfl
@[simp] theorem setEvq_evq (x) (s : State) : (setEvq x s).evq = x := rfl
@[simp] theorem setEvq_time (x) (s : State) : (setEvq x s).time = s.time := rfl

/-! ### setTime -/

@[simp] theorem setTime_pending (x) (s : State) : (setTime x s).pending = s.pending := rfl
@[simp] theorem setTime_line (x) (s : State) : (setTime x s).line = s.line := rfl
@[simp] theorem setTime_ctl (x) (s : State) : (setTime x s).ctl = s.ctl := rfl
@[simp] theorem setTime_pts (x) (s : State) : (setTime x s).pts = s.pts := rfl
@[simp] theorem setTime_mir (x) (s : State) : (setTime x s).mir = s.mir := rfl
@[simp] theorem setTime_cond (x) (s : State) : (setTime x s).cond = s.cond := rfl
@[simp] theorem setTime_out (x) (s : State) : (setTime x s).out = s.out := rfl
@[simp] theorem setTime_qry (x) (s : State) : (setTime x s).qry = s.qry := rfl
@[simp] theorem setTime_par (x) (s : State) : (setTime x s).par = s.par := rfl
@[simp] theorem setTime_port (x) (s : State) : (setTime x s).port = s.port := rfl
@[simp] theorem setTime_evq (x) (s : State) : (setTime x s).evq = s.evq := rfl
@[simp] theorem setTime_time (x) (s : State) : (setTime x s).time = x := rfl

/-! ### setCounters -/

@[simp] theorem setCounters_pending (c : Counters) (s : State) : (setCounters c s).pending = s.pending := rfl
@[simp] theorem setCounters_line (c : Counters) (s : State) : (setCounters c s).line = s.line := rfl
@[simp] theorem setCounters_ctl (c : Counters) (s : State) : (setCounters c s).ctl = s.ctl := rfl
@[simp] theorem setCounters_pts (c : Counters) (s : State) : (setCounters c s).pts = s.pts := rfl
@[simp] theorem setCounters_mir (c : Counters) (s : State) : (setCounters c s).mir = s.mir := rfl
@[simp] theorem setCounters_cond (c : Counters) (s : State) : (setCounters c s).cond = s.cond := rfl
@[simp] theorem setCounters_out (c : Counters) (s : State) : (setCounters c s).out = s.out := rfl
@[simp] theorem setCounters_qry (c : Counters) (s : State) : (setCounters c s).qry = s.qry := rfl
@[simp] theorem setCounters_par (c : Counters) (s : State) : (setCounters c s).par = { s.par with counters := c } := rfl
@[simp] theorem setCounters_port (c : Counters) (s : State) : (setCounters c s).port = s.port := rfl
@[simp] theorem setCounters_evq (c : Counters) (s : State) : (setCounters c s).evq = s.evq := rfl
@[simp] theorem setCounters_time (c : Counters) (s : State) : (setCounters c s).time = s.time := rfl

/-! ### storePoint -/

@[simp] theorem storePoint_pending (i : Nat) (p : Point) (s : State) : (storePoint i p s).pending = s.pending := rfl
@[simp] theorem storePoint_line (i : Nat) (p : Point) (s : State) : (storePoint i p s).line = s.line := rfl
@[simp] theorem storePoint_ctl (i : Nat) (p : Point) (s : State) : (storePoint i p s).ctl = s.ctl := rfl
@[simp] theorem storePoint_pts (i : Nat) (p : Point) (s : State) : (storePoint i p s).pts =
    { s.pts with points := s.pts.points.set i p } := rfl
@[simp] theorem storePoint_mir (i : Nat) (p : Point) (s : State) : (storePoint i p s).mir = s.mir := rfl
@[simp] theorem storePoint_cond (i : Nat) (p : Point) (s : State) : (storePoint i p s).cond = s.cond := rfl
@[simp] theorem storePoint_out (i : Nat) (p : Point) (s : State) : (storePoint i p s).out = s.out := rfl
@[simp] theorem storePoint_qry (i : Nat) (p : Point) (s : State) : (storePoint i p s).qry = s.qry := rfl
@[simp] theorem storePoint_par (i : Nat) (p : Point) (s : State) : (storePoint i p s).par = s.par := rfl
@[simp] theorem storePoint_port (i : Nat) (p : Point) (s : State) : (storePoint i p s).port = s.port := rfl
@[simp] theorem storePoint_evq (i : Nat) (p : Point) (s : State) : (storePoint i p s).evq = s.evq := rfl
@[simp] theorem storePoint_time (i : Nat) (p : Point) (s : State) : (storePoint i p s).time = s.time := rfl

/-! ### setLevel -/

@[simp] theorem setLevel_pending (i : Nat) (b : Bool) (s : State) : (setLevel i b s).pending = s.pending := rfl
@[simp] theorem setLevel_line (i : Nat) (b : Bool) (s : State) : (setLevel i b s).line = s.line := rfl
@[simp] theorem setLevel_ctl (i : Nat) (b : Bool) (s : State) : (setLevel i b s).ctl = s.ctl := rfl
@[simp] theorem setLevel_pts (i : Nat) (b : Bool) (s : State) : (setLevel i b s).pts = s.pts := rfl
@[simp] theorem setLevel_mir (i : Nat) (b : Bool) (s : State) : (setLevel i b s).mir = s.mir := rfl
@[simp] theorem setLevel_cond (i : Nat) (b : Bool) (s : State) : (setLevel i b s).cond = s.cond := rfl
@[simp] theorem setLevel_out (i : Nat) (b : Bool) (s : State) : (setLevel i b s).out =
    { s.out with level := putBit s.out.level i b } := rfl
@[simp] theorem setLevel_qry (i : Nat) (b : Bool) (s : State) : (setLevel i b s).qry = s.qry := rfl
@[simp] theorem setLevel_par (i : Nat) (b : Bool) (s : State) : (setLevel i b s).par = s.par := rfl
@[simp] theorem setLevel_port (i : Nat) (b : Bool) (s : State) : (setLevel i b s).port = s.port := rfl
@[simp] theorem setLevel_evq (i : Nat) (b : Bool) (s : State) : (setLevel i b s).evq = s.evq := rfl
@[simp] theorem setLevel_time (i : Nat) (b : Bool) (s : State) : (setLevel i b s).time = s.time := rfl

/-! ### pulseEdge -/

@[simp] theorem pulseEdge_pending (i : Nat) (w : Byte) (s : State) : (pulseEdge i w s).pending = s.pending := rfl
@[simp] theorem pulseEdge_line (i : Nat) (w : Byte) (s : State) : (pulseEdge i w s).line = s.line := rfl
@[simp] theorem pulseEdge_ctl (i : Nat) (w : Byte) (s : State) : (pulseEdge i w s).ctl = s.ctl := rfl
@[simp] theorem pulseEdge_pts (i : Nat) (w : Byte) (s : State) : (pulseEdge i w s).pts = s.pts := rfl
@[simp] theorem pulseEdge_mir (i : Nat) (w : Byte) (s : State) : (pulseEdge i w s).mir = s.mir := rfl
@[simp] theorem pulseEdge_cond (i : Nat) (w : Byte) (s : State) : (pulseEdge i w s).cond = s.cond := rfl
@[simp] theorem pulseEdge_out (i : Nat) (w : Byte) (s : State) : (pulseEdge i w s).out =
    { s.out with level := putBit s.out.level i true, pulse := s.out.pulse.set i (startTimer false w.toNat s) } := rfl
@[simp] theorem pulseEdge_qry (i : Nat) (w : Byte) (s : State) : (pulseEdge i w s).qry = s.qry := rfl
@[simp] theorem pulseEdge_par (i : Nat) (w : Byte) (s : State) : (pulseEdge i w s).par = s.par := rfl
@[simp] theorem pulseEdge_port (i : Nat) (w : Byte) (s : State) : (pulseEdge i w s).port = s.port := rfl
@[simp] theorem pulseEdge_evq (i : Nat) (w : Byte) (s : State) : (pulseEdge i w s).evq = s.evq := rfl
@[simp] theorem pulseEdge_time (i : Nat) (w : Byte) (s : State) : (pulseEdge i w s).time = s.time := rfl

/-! ### storeResult -/

@[simp] theorem storeResult_pending (k : Nat) (raw sure : Bool) (s : State) : (storeResult k raw sure s).pending =
    s.pending := rfl
@[simp] theorem storeResult_line (k : Nat) (raw sure : Bool) (s : State) : (storeResult k raw sure s).line = s.line := rfl
@[simp] theorem storeResult_ctl (k : Nat) (raw sure : Bool) (s : State) : (storeResult k raw sure s).ctl = s.ctl := rfl
@[simp] theorem storeResult_pts (k : Nat) (raw sure : Bool) (s : State) : (storeResult k raw sure s).pts = s.pts := rfl
@[simp] theorem storeResult_mir (k : Nat) (raw sure : Bool) (s : State) : (storeResult k raw sure s).mir = s.mir := rfl
@[simp] theorem storeResult_cond (k : Nat) (raw sure : Bool) (s : State) : (storeResult k raw sure s).cond =
    { s.cond with raw := putBit s.cond.raw k raw, sure := putBit s.cond.sure k sure } := rfl
@[simp] theorem storeResult_out (k : Nat) (raw sure : Bool) (s : State) : (storeResult k raw sure s).out = s.out := rfl
@[simp] theorem storeResult_qry (k : Nat) (raw sure : Bool) (s : State) : (storeResult k raw sure s).qry = s.qry := rfl
@[simp] theorem storeResult_par (k : Nat) (raw sure : Bool) (s : State) : (storeResult k raw sure s).par = s.par := rfl
@[simp] theorem storeResult_port (k : Nat) (raw sure : Bool) (s : State) : (storeResult k raw sure s).port = s.port := rfl
@[simp] theorem storeResult_evq (k : Nat) (raw sure : Bool) (s : State) : (storeResult k raw sure s).evq = s.evq := rfl
@[simp] theorem storeResult_time (k : Nat) (raw sure : Bool) (s : State) : (storeResult k raw sure s).time = s.time := rfl

/-! ### setConfirmTimer -/

@[simp] theorem setConfirmTimer_pending (k : Nat) (t : Timer) (s : State) : (setConfirmTimer k t s).pending =
    s.pending := rfl
@[simp] theorem setConfirmTimer_line (k : Nat) (t : Timer) (s : State) : (setConfirmTimer k t s).line = s.line := rfl
@[simp] theorem setConfirmTimer_ctl (k : Nat) (t : Timer) (s : State) : (setConfirmTimer k t s).ctl = s.ctl := rfl
@[simp] theorem setConfirmTimer_pts (k : Nat) (t : Timer) (s : State) : (setConfirmTimer k t s).pts = s.pts := rfl
@[simp] theorem setConfirmTimer_mir (k : Nat) (t : Timer) (s : State) : (setConfirmTimer k t s).mir = s.mir := rfl
@[simp] theorem setConfirmTimer_cond (k : Nat) (t : Timer) (s : State) : (setConfirmTimer k t s).cond =
    { s.cond with timers := s.cond.timers.set k t } := rfl
@[simp] theorem setConfirmTimer_out (k : Nat) (t : Timer) (s : State) : (setConfirmTimer k t s).out = s.out := rfl
@[simp] theorem setConfirmTimer_qry (k : Nat) (t : Timer) (s : State) : (setConfirmTimer k t s).qry = s.qry := rfl
@[simp] theorem setConfirmTimer_par (k : Nat) (t : Timer) (s : State) : (setConfirmTimer k t s).par = s.par := rfl
@[simp] theorem setConfirmTimer_port (k : Nat) (t : Timer) (s : State) : (setConfirmTimer k t s).port = s.port := rfl
@[simp] theorem setConfirmTimer_evq (k : Nat) (t : Timer) (s : State) : (setConfirmTimer k t s).evq = s.evq := rfl
@[simp] theorem setConfirmTimer_time (k : Nat) (t : Timer) (s : State) : (setConfirmTimer k t s).time = s.time := rfl

/-! ### storeWord -/

@[simp] theorem storeWord_pending (i : Byte) (v : Word) (s : State) : (storeWord i v s).pending = s.pending := rfl
@[simp] theorem storeWord_line (i : Byte) (v : Word) (s : State) : (storeWord i v s).line = s.line := rfl
@[simp] theorem storeWord_ctl (i : Byte) (v : Word) (s : State) : (storeWord i v s).ctl = s.ctl := rfl
@[simp] theorem storeWord_pts (i : Byte) (v : Word) (s : State) : (storeWord i v s).pts = s.pts := rfl
@[simp] theorem storeWord_mir (i : Byte) (v : Word) (s : State) : (storeWord i v s).mir = s.mir := rfl
@[simp] theorem storeWord_cond (i : Byte) (v : Word) (s : State) : (storeWord i v s).cond = s.cond := rfl
@[simp] theorem storeWord_out (i : Byte) (v : Word) (s : State) : (storeWord i v s).out = s.out := rfl
@[simp] theorem storeWord_qry (i : Byte) (v : Word) (s : State) : (storeWord i v s).qry = s.qry := rfl
@[simp] theorem storeWord_par (i : Byte) (v : Word) (s : State) : (storeWord i v s).par =
    { s.par with host := s.par.host.set i.toNat v } := rfl
@[simp] theorem storeWord_port (i : Byte) (v : Word) (s : State) : (storeWord i v s).port = s.port := rfl
@[simp] theorem storeWord_evq (i : Byte) (v : Word) (s : State) : (storeWord i v s).evq = s.evq := rfl
@[simp] theorem storeWord_time (i : Byte) (v : Word) (s : State) : (storeWord i v s).time = s.time := rfl

/-! ### setQueries -/

@[simp] theorem setQueries_pending (l : List Query) (s : State) : (setQueries l s).pending = s.pending := rfl
@[simp] theorem setQueries_line (l : List Query) (s : State) : (setQueries l s).line = s.line := rfl
@[simp] theorem setQueries_ctl (l : List Query) (s : State) : (setQueries l s).ctl = s.ctl := rfl
@[simp] theorem setQueries_pts (l : List Query) (s : State) : (setQueries l s).pts = s.pts := rfl
@[simp] theorem setQueries_mir (l : List Query) (s : State) : (setQueries l s).mir = s.mir := rfl
@[simp] theorem setQueries_cond (l : List Query) (s : State) : (setQueries l s).cond = s.cond := rfl
@[simp] theorem setQueries_out (l : List Query) (s : State) : (setQueries l s).out = s.out := rfl
@[simp] theorem setQueries_qry (l : List Query) (s : State) : (setQueries l s).qry = { s.qry with queries := l } := rfl
@[simp] theorem setQueries_par (l : List Query) (s : State) : (setQueries l s).par = s.par := rfl
@[simp] theorem setQueries_port (l : List Query) (s : State) : (setQueries l s).port = s.port := rfl
@[simp] theorem setQueries_evq (l : List Query) (s : State) : (setQueries l s).evq = s.evq := rfl
@[simp] theorem setQueries_time (l : List Query) (s : State) : (setQueries l s).time = s.time := rfl

/-! ### removeAnswer -/

@[simp] theorem removeAnswer_pending (s : State) : (removeAnswer s).pending = s.pending := rfl
@[simp] theorem removeAnswer_line (s : State) : (removeAnswer s).line = s.line := rfl
@[simp] theorem removeAnswer_ctl (s : State) : (removeAnswer s).ctl = s.ctl := rfl
@[simp] theorem removeAnswer_pts (s : State) : (removeAnswer s).pts = s.pts := rfl
@[simp] theorem removeAnswer_mir (s : State) : (removeAnswer s).mir = s.mir := rfl
@[simp] theorem removeAnswer_cond (s : State) : (removeAnswer s).cond = s.cond := rfl
@[simp] theorem removeAnswer_out (s : State) : (removeAnswer s).out = s.out := rfl
@[simp] theorem removeAnswer_qry (s : State) : (removeAnswer s).qry = { s.qry with answers := s.qry.answers.tail } := rfl
@[simp] theorem removeAnswer_par (s : State) : (removeAnswer s).par = s.par := rfl
@[simp] theorem removeAnswer_port (s : State) : (removeAnswer s).port = s.port := rfl
@[simp] theorem removeAnswer_evq (s : State) : (removeAnswer s).evq = s.evq := rfl
@[simp] theorem removeAnswer_time (s : State) : (removeAnswer s).time = s.time := rfl

/-! ### issueQuery -/

@[simp] theorem issueQuery_pending (q : Query) (s : State) : (issueQuery q s).pending = s.pending := rfl
@[simp] theorem issueQuery_line (q : Query) (s : State) : (issueQuery q s).line = s.line := rfl
@[simp] theorem issueQuery_ctl (q : Query) (s : State) : (issueQuery q s).ctl = s.ctl := rfl
@[simp] theorem issueQuery_pts (q : Query) (s : State) : (issueQuery q s).pts = s.pts := rfl
@[simp] theorem issueQuery_mir (q : Query) (s : State) : (issueQuery q s).mir = s.mir := rfl
@[simp] theorem issueQuery_cond (q : Query) (s : State) : (issueQuery q s).cond = s.cond := rfl
@[simp] theorem issueQuery_out (q : Query) (s : State) : (issueQuery q s).out = s.out := rfl
@[simp] theorem issueQuery_qry (q : Query) (s : State) : (issueQuery q s).qry =
    { s.qry with queries := s.qry.queries ++ [q], tagCounter := q.tag + 1 } := rfl
@[simp] theorem issueQuery_par (q : Query) (s : State) : (issueQuery q s).par = s.par := rfl
@[simp] theorem issueQuery_port (q : Query) (s : State) : (issueQuery q s).port = s.port := rfl
@[simp] theorem issueQuery_evq (q : Query) (s : State) : (issueQuery q s).evq = s.evq := rfl
@[simp] theorem issueQuery_time (q : Query) (s : State) : (issueQuery q s).time = s.time := rfl

/-! ### setPlace -/

@[simp] theorem setPlace_pending (i : Nat) (e : Option Entry) (s : State) : (setPlace i e s).pending = s.pending := rfl
@[simp] theorem setPlace_line (i : Nat) (e : Option Entry) (s : State) : (setPlace i e s).line = s.line := rfl
@[simp] theorem setPlace_ctl (i : Nat) (e : Option Entry) (s : State) : (setPlace i e s).ctl = s.ctl := rfl
@[simp] theorem setPlace_pts (i : Nat) (e : Option Entry) (s : State) : (setPlace i e s).pts = s.pts := rfl
@[simp] theorem setPlace_mir (i : Nat) (e : Option Entry) (s : State) : (setPlace i e s).mir = s.mir.set i e := rfl
@[simp] theorem setPlace_cond (i : Nat) (e : Option Entry) (s : State) : (setPlace i e s).cond = s.cond := rfl
@[simp] theorem setPlace_out (i : Nat) (e : Option Entry) (s : State) : (setPlace i e s).out = s.out := rfl
@[simp] theorem setPlace_qry (i : Nat) (e : Option Entry) (s : State) : (setPlace i e s).qry = s.qry := rfl
@[simp] theorem setPlace_par (i : Nat) (e : Option Entry) (s : State) : (setPlace i e s).par = s.par := rfl
@[simp] theorem setPlace_port (i : Nat) (e : Option Entry) (s : State) : (setPlace i e s).port = s.port := rfl
@[simp] theorem setPlace_evq (i : Nat) (e : Option Entry) (s : State) : (setPlace i e s).evq = s.evq := rfl
@[simp] theorem setPlace_time (i : Nat) (e : Option Entry) (s : State) : (setPlace i e s).time = s.time := rfl

/-! ### setDef -/

@[simp] theorem setDef_pending (k : Nat) (d : Option Condition) (s : State) : (setDef k d s).pending = s.pending := rfl
@[simp] theorem setDef_line (k : Nat) (d : Option Condition) (s : State) : (setDef k d s).line = s.line := rfl
@[simp] theorem setDef_ctl (k : Nat) (d : Option Condition) (s : State) : (setDef k d s).ctl = s.ctl := rfl
@[simp] theorem setDef_pts (k : Nat) (d : Option Condition) (s : State) : (setDef k d s).pts = s.pts := rfl
@[simp] theorem setDef_mir (k : Nat) (d : Option Condition) (s : State) : (setDef k d s).mir = s.mir := rfl
@[simp] theorem setDef_cond (k : Nat) (d : Option Condition) (s : State) : (setDef k d s).cond =
    { s.cond with defs := s.cond.defs.set k d } := rfl
@[simp] theorem setDef_out (k : Nat) (d : Option Condition) (s : State) : (setDef k d s).out = s.out := rfl
@[simp] theorem setDef_qry (k : Nat) (d : Option Condition) (s : State) : (setDef k d s).qry = s.qry := rfl
@[simp] theorem setDef_par (k : Nat) (d : Option Condition) (s : State) : (setDef k d s).par = s.par := rfl
@[simp] theorem setDef_port (k : Nat) (d : Option Condition) (s : State) : (setDef k d s).port = s.port := rfl
@[simp] theorem setDef_evq (k : Nat) (d : Option Condition) (s : State) : (setDef k d s).evq = s.evq := rfl
@[simp] theorem setDef_time (k : Nat) (d : Option Condition) (s : State) : (setDef k d s).time = s.time := rfl

/-! ### setRule -/

@[simp] theorem setRule_pending (i : Nat) (r : Option OutRule) (s : State) : (setRule i r s).pending = s.pending := rfl
@[simp] theorem setRule_line (i : Nat) (r : Option OutRule) (s : State) : (setRule i r s).line = s.line := rfl
@[simp] theorem setRule_ctl (i : Nat) (r : Option OutRule) (s : State) : (setRule i r s).ctl = s.ctl := rfl
@[simp] theorem setRule_pts (i : Nat) (r : Option OutRule) (s : State) : (setRule i r s).pts = s.pts := rfl
@[simp] theorem setRule_mir (i : Nat) (r : Option OutRule) (s : State) : (setRule i r s).mir = s.mir := rfl
@[simp] theorem setRule_cond (i : Nat) (r : Option OutRule) (s : State) : (setRule i r s).cond = s.cond := rfl
@[simp] theorem setRule_out (i : Nat) (r : Option OutRule) (s : State) : (setRule i r s).out =
    { s.out with edited := s.out.edited.set i r } := rfl
@[simp] theorem setRule_qry (i : Nat) (r : Option OutRule) (s : State) : (setRule i r s).qry = s.qry := rfl
@[simp] theorem setRule_par (i : Nat) (r : Option OutRule) (s : State) : (setRule i r s).par = s.par := rfl
@[simp] theorem setRule_port (i : Nat) (r : Option OutRule) (s : State) : (setRule i r s).port = s.port := rfl
@[simp] theorem setRule_evq (i : Nat) (r : Option OutRule) (s : State) : (setRule i r s).evq = s.evq := rfl
@[simp] theorem setRule_time (i : Nat) (r : Option OutRule) (s : State) : (setRule i r s).time = s.time := rfl

/-! ### setFilterTimer -/

@[simp] theorem setFilterTimer_pending (i : Nat) (t : Timer) (s : State) : (setFilterTimer i t s).pending = s.pending := rfl
@[simp] theorem setFilterTimer_line (i : Nat) (t : Timer) (s : State) : (setFilterTimer i t s).line = s.line := rfl
@[simp] theorem setFilterTimer_ctl (i : Nat) (t : Timer) (s : State) : (setFilterTimer i t s).ctl = s.ctl := rfl
@[simp] theorem setFilterTimer_pts (i : Nat) (t : Timer) (s : State) : (setFilterTimer i t s).pts =
    { s.pts with filterTimers := s.pts.filterTimers.set i t } := rfl
@[simp] theorem setFilterTimer_mir (i : Nat) (t : Timer) (s : State) : (setFilterTimer i t s).mir = s.mir := rfl
@[simp] theorem setFilterTimer_cond (i : Nat) (t : Timer) (s : State) : (setFilterTimer i t s).cond = s.cond := rfl
@[simp] theorem setFilterTimer_out (i : Nat) (t : Timer) (s : State) : (setFilterTimer i t s).out = s.out := rfl
@[simp] theorem setFilterTimer_qry (i : Nat) (t : Timer) (s : State) : (setFilterTimer i t s).qry = s.qry := rfl
@[simp] theorem setFilterTimer_par (i : Nat) (t : Timer) (s : State) : (setFilterTimer i t s).par = s.par := rfl
@[simp] theorem setFilterTimer_port (i : Nat) (t : Timer) (s : State) : (setFilterTimer i t s).port = s.port := rfl
@[simp] theorem setFilterTimer_evq (i : Nat) (t : Timer) (s : State) : (setFilterTimer i t s).evq = s.evq := rfl
@[simp] theorem setFilterTimer_time (i : Nat) (t : Timer) (s : State) : (setFilterTimer i t s).time = s.time := rfl

/-! ### clearPoints -/

@[simp] theorem clearPoints_pending (q : Quality) (s : State) : (clearPoints q s).pending = s.pending := rfl
@[simp] theorem clearPoints_line (q : Quality) (s : State) : (clearPoints q s).line = s.line := rfl
@[simp] theorem clearPoints_ctl (q : Quality) (s : State) : (clearPoints q s).ctl = s.ctl := rfl
@[simp] theorem clearPoints_pts (q : Quality) (s : State) : (clearPoints q s).pts =
    { s.pts with points := s.pts.points.take 2 ++ [⟨0, q⟩] ++ List.replicate 5 ⟨0, .held⟩ } := rfl
@[simp] theorem clearPoints_mir (q : Quality) (s : State) : (clearPoints q s).mir = s.mir := rfl
@[simp] theorem clearPoints_cond (q : Quality) (s : State) : (clearPoints q s).cond = s.cond := rfl
@[simp] theorem clearPoints_out (q : Quality) (s : State) : (clearPoints q s).out = s.out := rfl
@[simp] theorem clearPoints_qry (q : Quality) (s : State) : (clearPoints q s).qry = s.qry := rfl
@[simp] theorem clearPoints_par (q : Quality) (s : State) : (clearPoints q s).par = s.par := rfl
@[simp] theorem clearPoints_port (q : Quality) (s : State) : (clearPoints q s).port = s.port := rfl
@[simp] theorem clearPoints_evq (q : Quality) (s : State) : (clearPoints q s).evq = s.evq := rfl
@[simp] theorem clearPoints_time (q : Quality) (s : State) : (clearPoints q s).time = s.time := rfl

/-! ### watchForListen -/

@[simp] theorem watchForListen_pending (n : Nat) (s : State) : (watchForListen n s).pending = s.pending := rfl
@[simp] theorem watchForListen_line (n : Nat) (s : State) : (watchForListen n s).line =
    { s.line with phase := .watch, slot := none, slotTimer := none, contention := none, coldStart := some s.coldStartWait, collisionRun := 0, driverRun := 0, foreignCount := n } := rfl
@[simp] theorem watchForListen_ctl (n : Nat) (s : State) : (watchForListen n s).ctl = s.ctl := rfl
@[simp] theorem watchForListen_pts (n : Nat) (s : State) : (watchForListen n s).pts = s.pts := rfl
@[simp] theorem watchForListen_mir (n : Nat) (s : State) : (watchForListen n s).mir = s.mir := rfl
@[simp] theorem watchForListen_cond (n : Nat) (s : State) : (watchForListen n s).cond = s.cond := rfl
@[simp] theorem watchForListen_out (n : Nat) (s : State) : (watchForListen n s).out = s.out := rfl
@[simp] theorem watchForListen_qry (n : Nat) (s : State) : (watchForListen n s).qry = s.qry := rfl
@[simp] theorem watchForListen_par (n : Nat) (s : State) : (watchForListen n s).par = s.par := rfl
@[simp] theorem watchForListen_port (n : Nat) (s : State) : (watchForListen n s).port = s.port := rfl
@[simp] theorem watchForListen_evq (n : Nat) (s : State) : (watchForListen n s).evq = s.evq := rfl
@[simp] theorem watchForListen_time (n : Nat) (s : State) : (watchForListen n s).time = s.time := rfl

/-! ### watchForFault -/

@[simp] theorem watchForFault_pending (s : State) : (watchForFault s).pending = s.pending := rfl
@[simp] theorem watchForFault_line (s : State) : (watchForFault s).line =
    { s.line with phase := .watch, slot := none, slotTimer := none, contention := none, coldStart := none } := rfl
@[simp] theorem watchForFault_ctl (s : State) : (watchForFault s).ctl = s.ctl := rfl
@[simp] theorem watchForFault_pts (s : State) : (watchForFault s).pts = s.pts := rfl
@[simp] theorem watchForFault_mir (s : State) : (watchForFault s).mir = s.mir := rfl
@[simp] theorem watchForFault_cond (s : State) : (watchForFault s).cond = s.cond := rfl
@[simp] theorem watchForFault_out (s : State) : (watchForFault s).out = s.out := rfl
@[simp] theorem watchForFault_qry (s : State) : (watchForFault s).qry = s.qry := rfl
@[simp] theorem watchForFault_par (s : State) : (watchForFault s).par = s.par := rfl
@[simp] theorem watchForFault_port (s : State) : (watchForFault s).port = s.port := rfl
@[simp] theorem watchForFault_evq (s : State) : (watchForFault s).evq = s.evq := rfl
@[simp] theorem watchForFault_time (s : State) : (watchForFault s).time = s.time := rfl

/-! ### loadContention -/

@[simp] theorem loadContention_pending (n : Nat) (s : State) : (loadContention n s).pending = s.pending := rfl
@[simp] theorem loadContention_line (n : Nat) (s : State) : (loadContention n s).line =
    { s.line with phase := .contention, slot := none, slotTimer := none, contention := some (s.contentionWait - n) } := rfl
@[simp] theorem loadContention_ctl (n : Nat) (s : State) : (loadContention n s).ctl = s.ctl := rfl
@[simp] theorem loadContention_pts (n : Nat) (s : State) : (loadContention n s).pts = s.pts := rfl
@[simp] theorem loadContention_mir (n : Nat) (s : State) : (loadContention n s).mir = s.mir := rfl
@[simp] theorem loadContention_cond (n : Nat) (s : State) : (loadContention n s).cond = s.cond := rfl
@[simp] theorem loadContention_out (n : Nat) (s : State) : (loadContention n s).out = s.out := rfl
@[simp] theorem loadContention_qry (n : Nat) (s : State) : (loadContention n s).qry = s.qry := rfl
@[simp] theorem loadContention_par (n : Nat) (s : State) : (loadContention n s).par = s.par := rfl
@[simp] theorem loadContention_port (n : Nat) (s : State) : (loadContention n s).port = s.port := rfl
@[simp] theorem loadContention_evq (n : Nat) (s : State) : (loadContention n s).evq = s.evq := rfl
@[simp] theorem loadContention_time (n : Nat) (s : State) : (loadContention n s).time = s.time := rfl

/-! ### beginOpen -/

@[simp] theorem beginOpen_pending (s : State) : (beginOpen s).pending = s.pending := rfl
@[simp] theorem beginOpen_line (s : State) : (beginOpen s).line =
    { s.line with phase := .contention, contention := none, coldStart := none, slotTimer := none, slot := none, tx := .sending .openFrame, gapTimer := none, txFrame := ownOpen s (s.line.round + 1), txQuery := none, txAnswer := false } := rfl
@[simp] theorem beginOpen_ctl (s : State) : (beginOpen s).ctl = s.ctl := rfl
@[simp] theorem beginOpen_pts (s : State) : (beginOpen s).pts = s.pts := rfl
@[simp] theorem beginOpen_mir (s : State) : (beginOpen s).mir = s.mir := rfl
@[simp] theorem beginOpen_cond (s : State) : (beginOpen s).cond = s.cond := rfl
@[simp] theorem beginOpen_out (s : State) : (beginOpen s).out = s.out := rfl
@[simp] theorem beginOpen_qry (s : State) : (beginOpen s).qry = s.qry := rfl
@[simp] theorem beginOpen_par (s : State) : (beginOpen s).par = s.par := rfl
@[simp] theorem beginOpen_port (s : State) : (beginOpen s).port = s.port := rfl
@[simp] theorem beginOpen_evq (s : State) : (beginOpen s).evq = s.evq := rfl
@[simp] theorem beginOpen_time (s : State) : (beginOpen s).time = s.time := rfl

/-! ### gather -/

@[simp] theorem gather_pending (n : Nat) (p : Option SlotPicture) (s : State) : (gather n p s).pending = s.pending := rfl
@[simp] theorem gather_line (n : Nat) (p : Option SlotPicture) (s : State) : (gather n p s).line =
    { s.line with tx := .gap, gapTimer := some (s.ct - n), txFrame := (p.getD (slotPicture s)).chars, txQuery := (p.getD (slotPicture s)).query, txAnswer := (p.getD (slotPicture s)).answer } := rfl
@[simp] theorem gather_ctl (n : Nat) (p : Option SlotPicture) (s : State) : (gather n p s).ctl = s.ctl := rfl
@[simp] theorem gather_pts (n : Nat) (p : Option SlotPicture) (s : State) : (gather n p s).pts = s.pts := rfl
@[simp] theorem gather_mir (n : Nat) (p : Option SlotPicture) (s : State) : (gather n p s).mir = s.mir := rfl
@[simp] theorem gather_cond (n : Nat) (p : Option SlotPicture) (s : State) : (gather n p s).cond = s.cond := rfl
@[simp] theorem gather_out (n : Nat) (p : Option SlotPicture) (s : State) : (gather n p s).out = s.out := rfl
@[simp] theorem gather_qry (n : Nat) (p : Option SlotPicture) (s : State) : (gather n p s).qry = s.qry := rfl
@[simp] theorem gather_par (n : Nat) (p : Option SlotPicture) (s : State) : (gather n p s).par = s.par := rfl
@[simp] theorem gather_port (n : Nat) (p : Option SlotPicture) (s : State) : (gather n p s).port = s.port := rfl
@[simp] theorem gather_evq (n : Nat) (p : Option SlotPicture) (s : State) : (gather n p s).evq = s.evq := rfl
@[simp] theorem gather_time (n : Nat) (p : Option SlotPicture) (s : State) : (gather n p s).time = s.time := rfl

/-! ### txDone -/

@[simp] theorem txDone_pending (s : State) : (txDone s).pending = s.pending := rfl
@[simp] theorem txDone_line (s : State) : (txDone s).line =
    { (clearTx .idle s.line) with collisionRun := 0, driverRun := 0 } := rfl
@[simp] theorem txDone_ctl (s : State) : (txDone s).ctl = s.ctl := rfl
@[simp] theorem txDone_pts (s : State) : (txDone s).pts = s.pts := rfl
@[simp] theorem txDone_mir (s : State) : (txDone s).mir = s.mir := rfl
@[simp] theorem txDone_cond (s : State) : (txDone s).cond = s.cond := rfl
@[simp] theorem txDone_out (s : State) : (txDone s).out = s.out := rfl
@[simp] theorem txDone_qry (s : State) : (txDone s).qry = s.qry := rfl
@[simp] theorem txDone_par (s : State) : (txDone s).par = s.par := rfl
@[simp] theorem txDone_port (s : State) : (txDone s).port = s.port := rfl
@[simp] theorem txDone_evq (s : State) : (txDone s).evq = s.evq := rfl
@[simp] theorem txDone_time (s : State) : (txDone s).time = s.time := rfl

/-! ### controlForListen -/

@[simp] theorem controlForListen_pending (s : State) : (controlForListen s).pending = s.pending := rfl
@[simp] theorem controlForListen_line (s : State) : (controlForListen s).line = s.line := rfl
@[simp] theorem controlForListen_ctl (s : State) : (controlForListen s).ctl =
    { s.ctl with state := .listen, faultCause := .none, loneCounter := 0, heard := false, ageTimer := some s.agePeriod } := rfl
@[simp] theorem controlForListen_pts (s : State) : (controlForListen s).pts = s.pts := rfl
@[simp] theorem controlForListen_mir (s : State) : (controlForListen s).mir = s.mir := rfl
@[simp] theorem controlForListen_cond (s : State) : (controlForListen s).cond = s.cond := rfl
@[simp] theorem controlForListen_out (s : State) : (controlForListen s).out = s.out := rfl
@[simp] theorem controlForListen_qry (s : State) : (controlForListen s).qry = s.qry := rfl
@[simp] theorem controlForListen_par (s : State) : (controlForListen s).par = s.par := rfl
@[simp] theorem controlForListen_port (s : State) : (controlForListen s).port = s.port := rfl
@[simp] theorem controlForListen_evq (s : State) : (controlForListen s).evq = s.evq := rfl
@[simp] theorem controlForListen_time (s : State) : (controlForListen s).time = s.time := rfl

/-! ### controlForSynced -/

@[simp] theorem controlForSynced_pending (s : State) : (controlForSynced s).pending = s.pending := rfl
@[simp] theorem controlForSynced_line (s : State) : (controlForSynced s).line = s.line := rfl
@[simp] theorem controlForSynced_ctl (s : State) : (controlForSynced s).ctl =
    { s.ctl with state := .synced, ageTimer := none, loneCounter := 0, heard := false } := rfl
@[simp] theorem controlForSynced_pts (s : State) : (controlForSynced s).pts = s.pts := rfl
@[simp] theorem controlForSynced_mir (s : State) : (controlForSynced s).mir = s.mir := rfl
@[simp] theorem controlForSynced_cond (s : State) : (controlForSynced s).cond = s.cond := rfl
@[simp] theorem controlForSynced_out (s : State) : (controlForSynced s).out = s.out := rfl
@[simp] theorem controlForSynced_qry (s : State) : (controlForSynced s).qry = s.qry := rfl
@[simp] theorem controlForSynced_par (s : State) : (controlForSynced s).par = s.par := rfl
@[simp] theorem controlForSynced_port (s : State) : (controlForSynced s).port = s.port := rfl
@[simp] theorem controlForSynced_evq (s : State) : (controlForSynced s).evq = s.evq := rfl
@[simp] theorem controlForSynced_time (s : State) : (controlForSynced s).time = s.time := rfl

/-! ### controlForConfig -/

@[simp] theorem controlForConfig_pending (s : State) : (controlForConfig s).pending = s.pending := rfl
@[simp] theorem controlForConfig_line (s : State) : (controlForConfig s).line = s.line := rfl
@[simp] theorem controlForConfig_ctl (s : State) : (controlForConfig s).ctl =
    { s.ctl with state := .config, faultCause := .none, holds := HoldReasons.empty, loneCounter := 0, heard := false, ageTimer := none, driveMode := .safe } := rfl
@[simp] theorem controlForConfig_pts (s : State) : (controlForConfig s).pts = s.pts := rfl
@[simp] theorem controlForConfig_mir (s : State) : (controlForConfig s).mir = s.mir := rfl
@[simp] theorem controlForConfig_cond (s : State) : (controlForConfig s).cond = s.cond := rfl
@[simp] theorem controlForConfig_out (s : State) : (controlForConfig s).out = s.out := rfl
@[simp] theorem controlForConfig_qry (s : State) : (controlForConfig s).qry = s.qry := rfl
@[simp] theorem controlForConfig_par (s : State) : (controlForConfig s).par = s.par := rfl
@[simp] theorem controlForConfig_port (s : State) : (controlForConfig s).port = s.port := rfl
@[simp] theorem controlForConfig_evq (s : State) : (controlForConfig s).evq = s.evq := rfl
@[simp] theorem controlForConfig_time (s : State) : (controlForConfig s).time = s.time := rfl

/-! ### countForeign -/

@[simp] theorem countForeign_pending (s : State) : (countForeign s).pending = s.pending := rfl
@[simp] theorem countForeign_line (s : State) : (countForeign s).line = s.line := rfl
@[simp] theorem countForeign_ctl (s : State) : (countForeign s).ctl = s.ctl := rfl
@[simp] theorem countForeign_pts (s : State) : (countForeign s).pts = s.pts := rfl
@[simp] theorem countForeign_mir (s : State) : (countForeign s).mir = s.mir := rfl
@[simp] theorem countForeign_cond (s : State) : (countForeign s).cond = s.cond := rfl
@[simp] theorem countForeign_out (s : State) : (countForeign s).out = s.out := rfl
@[simp] theorem countForeign_qry (s : State) : (countForeign s).qry = s.qry := rfl
@[simp] theorem countForeign_par (s : State) : (countForeign s).par =
    { s.par with counters := { s.par.counters with foreignOpens := satInc s.par.counters.foreignOpens } } := rfl
@[simp] theorem countForeign_port (s : State) : (countForeign s).port = s.port := rfl
@[simp] theorem countForeign_evq (s : State) : (countForeign s).evq = s.evq := rfl
@[simp] theorem countForeign_time (s : State) : (countForeign s).time = s.time := rfl

/-! ### countMismatch -/

@[simp] theorem countMismatch_pending (s : State) : (countMismatch s).pending = s.pending := rfl
@[simp] theorem countMismatch_line (s : State) : (countMismatch s).line = s.line := rfl
@[simp] theorem countMismatch_ctl (s : State) : (countMismatch s).ctl = s.ctl := rfl
@[simp] theorem countMismatch_pts (s : State) : (countMismatch s).pts = s.pts := rfl
@[simp] theorem countMismatch_mir (s : State) : (countMismatch s).mir = s.mir := rfl
@[simp] theorem countMismatch_cond (s : State) : (countMismatch s).cond = s.cond := rfl
@[simp] theorem countMismatch_out (s : State) : (countMismatch s).out = s.out := rfl
@[simp] theorem countMismatch_qry (s : State) : (countMismatch s).qry = s.qry := rfl
@[simp] theorem countMismatch_par (s : State) : (countMismatch s).par =
    { s.par with counters := { s.par.counters with mismatches := satInc s.par.counters.mismatches } } := rfl
@[simp] theorem countMismatch_port (s : State) : (countMismatch s).port = s.port := rfl
@[simp] theorem countMismatch_evq (s : State) : (countMismatch s).evq = s.evq := rfl
@[simp] theorem countMismatch_time (s : State) : (countMismatch s).time = s.time := rfl

/-! ### endExecution -/

@[simp] theorem endExecution_pending (r : Reply) (s : State) : (endExecution r s).pending = s.pending := rfl
@[simp] theorem endExecution_line (r : Reply) (s : State) : (endExecution r s).line = s.line := rfl
@[simp] theorem endExecution_ctl (r : Reply) (s : State) : (endExecution r s).ctl = s.ctl := rfl
@[simp] theorem endExecution_pts (r : Reply) (s : State) : (endExecution r s).pts = s.pts := rfl
@[simp] theorem endExecution_mir (r : Reply) (s : State) : (endExecution r s).mir = s.mir := rfl
@[simp] theorem endExecution_cond (r : Reply) (s : State) : (endExecution r s).cond = s.cond := rfl
@[simp] theorem endExecution_out (r : Reply) (s : State) : (endExecution r s).out = s.out := rfl
@[simp] theorem endExecution_qry (r : Reply) (s : State) : (endExecution r s).qry = s.qry := rfl
@[simp] theorem endExecution_par (r : Reply) (s : State) : (endExecution r s).par = s.par := rfl
@[simp] theorem endExecution_port (r : Reply) (s : State) : (endExecution r s).port = endPort r s.port := rfl
@[simp] theorem endExecution_evq (r : Reply) (s : State) : (endExecution r s).evq = s.evq := rfl
@[simp] theorem endExecution_time (r : Reply) (s : State) : (endExecution r s).time = s.time := rfl

/-! ### emptyBuffers -/

@[simp] theorem emptyBuffers_phase (p : HostPort) : (emptyBuffers p).phase = p.phase := rfl
@[simp] theorem emptyBuffers_buf (p : HostPort) : (emptyBuffers p).buf = [] := rfl
@[simp] theorem emptyBuffers_len (p : HostPort) : (emptyBuffers p).len = none := rfl
@[simp] theorem emptyBuffers_reply (p : HostPort) : (emptyBuffers p).reply = [] := rfl
@[simp] theorem emptyBuffers_pos (p : HostPort) : (emptyBuffers p).pos = 0 := rfl
@[simp] theorem emptyBuffers_perr (p : HostPort) : (emptyBuffers p).perr = p.perr := rfl
@[simp] theorem emptyBuffers_discard (p : HostPort) : (emptyBuffers p).discard = p.discard := rfl
@[simp] theorem emptyBuffers_readData (p : HostPort) : (emptyBuffers p).readData = p.readData := rfl

/-! ### beginExecution -/

@[simp] theorem beginExecution_pending (m : List Byte) (s : State) : (beginExecution m s).pending = s.pending := rfl
@[simp] theorem beginExecution_line (m : List Byte) (s : State) : (beginExecution m s).line = s.line := rfl
@[simp] theorem beginExecution_ctl (m : List Byte) (s : State) : (beginExecution m s).ctl = s.ctl := rfl
@[simp] theorem beginExecution_pts (m : List Byte) (s : State) : (beginExecution m s).pts = s.pts := rfl
@[simp] theorem beginExecution_mir (m : List Byte) (s : State) : (beginExecution m s).mir = s.mir := rfl
@[simp] theorem beginExecution_cond (m : List Byte) (s : State) : (beginExecution m s).cond = s.cond := rfl
@[simp] theorem beginExecution_out (m : List Byte) (s : State) : (beginExecution m s).out = s.out := rfl
@[simp] theorem beginExecution_qry (m : List Byte) (s : State) : (beginExecution m s).qry = s.qry := rfl
@[simp] theorem beginExecution_par (m : List Byte) (s : State) : (beginExecution m s).par = s.par := rfl
@[simp] theorem beginExecution_port (m : List Byte) (s : State) : (beginExecution m s).port =
    { s.port with phase := .executing, buf := m, len := some (m.length - 2) } := rfl
@[simp] theorem beginExecution_evq (m : List Byte) (s : State) : (beginExecution m s).evq = s.evq := rfl
@[simp] theorem beginExecution_time (m : List Byte) (s : State) : (beginExecution m s).time = s.time := rfl

/-! ### setPerr -/

@[simp] theorem setPerr_pending (s : State) : (setPerr s).pending = s.pending := rfl
@[simp] theorem setPerr_line (s : State) : (setPerr s).line = s.line := rfl
@[simp] theorem setPerr_ctl (s : State) : (setPerr s).ctl = s.ctl := rfl
@[simp] theorem setPerr_pts (s : State) : (setPerr s).pts = s.pts := rfl
@[simp] theorem setPerr_mir (s : State) : (setPerr s).mir = s.mir := rfl
@[simp] theorem setPerr_cond (s : State) : (setPerr s).cond = s.cond := rfl
@[simp] theorem setPerr_out (s : State) : (setPerr s).out = s.out := rfl
@[simp] theorem setPerr_qry (s : State) : (setPerr s).qry = s.qry := rfl
@[simp] theorem setPerr_par (s : State) : (setPerr s).par = s.par := rfl
@[simp] theorem setPerr_port (s : State) : (setPerr s).port = { s.port with perr := true } := rfl
@[simp] theorem setPerr_evq (s : State) : (setPerr s).evq = s.evq := rfl
@[simp] theorem setPerr_time (s : State) : (setPerr s).time = s.time := rfl

end Sys2Proof.Machine
end

