-- ==== Sys2Proof/Laws/Ops.lean ====
section
/-! SUPPORT. What each shared operation can do and what it leaves: posting, notices, points, pins, the drive mode. Later proofs
cite these and never unfold the operations. -/

namespace Sys2Proof.Machine

/-! ## The event queue -/

/-- A queue grown by postings of ordinary records (R188, R189). -/
inductive Posted : List EventRec → List EventRec → Prop where
  | refl (q : List EventRec) : Posted q q
  | step {q q' : List EventRec} (r : EventRec) : r.kind ≠ .lost → Posted q q' → Posted q (enqueue q' r)

theorem Posted.of_eq {a b : List EventRec} (h : a = b) : Posted a b := h ▸ .refl a

theorem Posted.trans {a b c : List EventRec} (hab : Posted a b) (hbc : Posted b c) : Posted a c := by
  induction hbc with
  | refl => exact hab
  | step r hk _ ih => exact .step r hk ih

/-- What a bounded queue is, said of the list alone (R189). -/
def QueueOk (q : List EventRec) : Prop :=
  q.length ≤ 32 ∧ (q.length = 32 → ∃ r, q.getLast? = some r ∧ r.kind = .lost) ∧ ∀ r ∈ q, r.kind = .lost → r.subject ≠ 0

theorem queueSound_iff (s : State) : QueueSound s ↔ QueueOk s.evq := Iff.rfl

theorem lostAgain_kind (n r : EventRec) : (lostAgain n r).kind = n.kind := rfl

theorem lostAgain_subject_ne (n r : EventRec) (_h : n.subject ≠ 0) : (lostAgain n r).subject ≠ 0 := by
  unfold lostAgain
  by_cases h255 : n.subject = 255
  · simp [h255]
  · simp only [h255, if_false]
    intro h0
    apply h255
    have := congrArg BitVec.toNat h0
    apply BitVec.eq_of_toNat_eq
    have h1 := n.subject.isLt
    simp at this ⊢
    omega

/-- A posting keeps the queue bounded (R188, R189). -/
theorem enqueue_ok {q : List EventRec} (r : EventRec) (hk : r.kind ≠ .lost) (h : QueueOk q) : QueueOk (enqueue q r) := by
  obtain ⟨h32, hlast, hsub⟩ := h
  have key : ∀ n : EventRec, q.length ≤ 31 → n.subject ≠ 0 → n.kind = .lost → QueueOk (q ++ [n]) := by
    intro n hl hs hn
    refine ⟨by simp; omega, fun _ => ⟨n, by simp, hn⟩, ?_⟩
    intro x hx hxk
    rcases List.mem_append.1 hx with hx | hx
    · exact hsub x hx hxk
    · simp at hx; subst hx; exact hs
  unfold enqueue
  split
  · rename_i hlt
    simp only [Config.ordinaryRoom] at hlt
    refine ⟨by simp; omega, fun hc => by simp at hc; omega, ?_⟩
    intro x hx hxk
    rcases List.mem_append.1 hx with hx | hx
    · exact hsub x hx hxk
    · simp at hx; subst hx; exact absurd hxk hk
  · rename_i hge
    simp only [Config.ordinaryRoom] at hge
    split
    · rename_i n hn
      split
      · rename_i hnk
        have hq : q = q.dropLast ++ [n] := by
          rw [List.getLast?_eq_some_iff] at hn
          obtain ⟨ys, rfl⟩ := hn
          simp
        have hmem : n ∈ q := by rw [hq]; simp
        have hlen : (q.dropLast ++ [lostAgain n r]).length = q.length := by
          conv_rhs => rw [hq]
          simp
        refine ⟨by omega, fun _ => ⟨lostAgain n r, by simp, by simpa [lostAgain_kind] using hnk⟩, ?_⟩
        intro x hx hxk
        rcases List.mem_append.1 hx with hx | hx
        · exact hsub x (List.dropLast_subset _ hx) hxk
        · simp at hx; subst hx; exact lostAgain_subject_ne n r (hsub n hmem hnk)
      · rename_i hnk
        have : q.length ≠ 32 := by
          intro h
          obtain ⟨m, hm, hmk⟩ := hlast h
          rw [hn] at hm; cases hm; exact hnk hmk
        exact key _ (by omega) (by simp [lostRecord]) rfl
    · rename_i hn
      have : q = [] := by simpa using hn
      subst this; simp at hge

theorem Posted.ok {q q' : List EventRec} (hp : Posted q q') (h : QueueOk q) : QueueOk q' := by
  induction hp with
  | refl => exact h
  | step r hk _ ih => exact enqueue_ok r hk ih

/-- Everything a posting does (R188, R189). -/
theorem post_eq (k : EventKind) (a : Byte) (d : Word) (s : State) :
    post k a d s = setEvq (enqueue s.evq ⟨k, a, d, s.line.round⟩) (setCounters { s.par.counters with
      lostRecords := if s.evq.length < Config.ordinaryRoom then s.par.counters.lostRecords
        else satInc s.par.counters.lostRecords } s) := by
  simp only [post]
  split <;> rfl

@[simp] theorem post_frame (k : EventKind) (a : Byte) (d : Word) (s : State) :
    (post k a d s).pending = s.pending ∧ (post k a d s).line = s.line ∧ (post k a d s).ctl = s.ctl ∧
    (post k a d s).pts = s.pts ∧ (post k a d s).mir = s.mir ∧ (post k a d s).cond = s.cond ∧ (post k a d s).out = s.out ∧
    (post k a d s).qry = s.qry ∧ (post k a d s).port = s.port ∧ (post k a d s).time = s.time ∧
    (post k a d s).par.host = s.par.host ∧ (post k a d s).par.permit = s.par.permit ∧
    (post k a d s).evq = enqueue s.evq ⟨k, a, d, s.line.round⟩ := by
  simp [post_eq]

theorem post_posted (k : EventKind) (a : Byte) (d : Word) (s : State) (hk : k ≠ .lost) :
    Posted s.evq (post k a d s).evq := by
  simp only [post_frame]; exact .step _ hk (.refl _)

/-! ## Notices and points -/

/-- A notice changes nothing but the list of held notices (R56, R83). -/
@[simp] theorem notify_frame (n : Notice) (s : State) :
    (notify n s).pending = s.pending ∧ (notify n s).line = s.line ∧ (notify n s).ctl = s.ctl ∧
    (notify n s).pts = s.pts ∧ (notify n s).mir = s.mir ∧ (notify n s).out = s.out ∧ (notify n s).qry = s.qry ∧
    (notify n s).par = s.par ∧ (notify n s).port = s.port ∧ (notify n s).evq = s.evq ∧ (notify n s).time = s.time ∧
    (notify n s).cond.defs = s.cond.defs ∧ (notify n s).cond.raw = s.cond.raw ∧ (notify n s).cond.sure = s.cond.sure ∧
    (notify n s).cond.confirmed = s.cond.confirmed ∧ (notify n s).cond.timers = s.cond.timers ∧
    (notify n s).cond.notices = (if s.ctl.state = .config then s.cond.notices else s.cond.notices ++ [n]) := by
  unfold notify; split <;> simp

theorem notify_cond (n : Notice) (s : State) :
    (notify n s).cond = { s.cond with
      notices := if s.ctl.state = .config then s.cond.notices else s.cond.notices ++ [n] } := by
  unfold notify; split <;> simp

/-- A change of a point leaves every block but the points and the notices (R44, R56). -/
@[simp] theorem changePoint_frame (i : Nat) (p : Point) (n : Notice) (s : State) :
    (changePoint i p n s).pending = s.pending ∧ (changePoint i p n s).line = s.line ∧
    (changePoint i p n s).ctl = s.ctl ∧ (changePoint i p n s).mir = s.mir ∧ (changePoint i p n s).out = s.out ∧
    (changePoint i p n s).qry = s.qry ∧ (changePoint i p n s).par = s.par ∧ (changePoint i p n s).port = s.port ∧
    (changePoint i p n s).evq = s.evq ∧ (changePoint i p n s).time = s.time ∧
    (changePoint i p n s).cond.defs = s.cond.defs ∧ (changePoint i p n s).cond.raw = s.cond.raw ∧
    (changePoint i p n s).cond.sure = s.cond.sure ∧ (changePoint i p n s).cond.confirmed = s.cond.confirmed ∧
    (changePoint i p n s).cond.timers = s.cond.timers ∧
    (changePoint i p n s).pts.raw = s.pts.raw ∧ (changePoint i p n s).pts.filtered = s.pts.filtered ∧
    (changePoint i p n s).pts.filterTimers = s.pts.filterTimers ∧ (changePoint i p n s).pts.filterTime = s.pts.filterTime ∧
    (changePoint i p n s).pts.invert = s.pts.invert ∧ (changePoint i p n s).pts.publish = s.pts.publish ∧
    (changePoint i p n s).pts.driveMode = s.pts.driveMode ∧
    (changePoint i p n s).pts.points.length = s.pts.points.length := by
  unfold changePoint; split <;> simp

theorem changePoint_notices_config (i : Nat) (p : Point) (n : Notice) (s : State) (h : s.ctl.state = .config) :
    (changePoint i p n s).cond.notices = s.cond.notices := by
  unfold changePoint; split <;> simp [h]

/-- After a change of point `i` the points read as the new record at `i` and as before elsewhere. -/
theorem pointAt_changePoint (i j : Nat) (p : Point) (n : Notice) (s : State) (hi : i < s.pts.points.length) :
    pointAt (changePoint i p n s) j = if j = i then p else pointAt s j := by
  unfold changePoint
  split
  · rename_i h; by_cases hj : j = i
    · subst hj; simp [h]
    · simp [hj]
  · by_cases hj : j = i
    · subst hj; simp [pointAt, hi]
    · have hij : i ≠ j := fun h => hj h.symm
      simp [pointAt, hj, hij]

theorem pointAt_storePoint (i j : Nat) (p : Point) (s : State) (hi : i < s.pts.points.length) :
    pointAt (storePoint i p s) j = if j = i then p else pointAt s j := by
  by_cases hj : j = i
  · subst hj; simp [pointAt, hi]
  · have hij : i ≠ j := fun h => hj h.symm
    simp [pointAt, hj, hij]

/-- The points read are those of the point unit. -/
theorem pointAt_congr {s t : State} (h : s.pts.points = t.pts.points) (j : Nat) : pointAt s j = pointAt t j := by
  simp [pointAt, h]

@[simp] theorem pointAt_post (k : EventKind) (a : Byte) (d : Word) (s : State) (j : Nat) :
    pointAt (post k a d s) j = pointAt s j := pointAt_congr (by simp) j

@[simp] theorem pointAt_notify (n : Notice) (s : State) (j : Nat) : pointAt (notify n s) j = pointAt s j :=
  pointAt_congr (by simp) j

/-- Forming point 0 again leaves every block but point 0 and the notices (R46). -/
@[simp] theorem formPoint0_frame (s : State) :
    (formPoint0 s).pending = s.pending ∧ (formPoint0 s).line = s.line ∧ (formPoint0 s).ctl = s.ctl ∧
    (formPoint0 s).mir = s.mir ∧ (formPoint0 s).out = s.out ∧ (formPoint0 s).qry = s.qry ∧ (formPoint0 s).par = s.par ∧
    (formPoint0 s).port = s.port ∧ (formPoint0 s).evq = s.evq ∧ (formPoint0 s).time = s.time ∧
    (formPoint0 s).cond.defs = s.cond.defs ∧ (formPoint0 s).cond.raw = s.cond.raw ∧
    (formPoint0 s).cond.sure = s.cond.sure ∧ (formPoint0 s).cond.confirmed = s.cond.confirmed ∧
    (formPoint0 s).cond.timers = s.cond.timers ∧ (formPoint0 s).pts.raw = s.pts.raw ∧
    (formPoint0 s).pts.filtered = s.pts.filtered ∧ (formPoint0 s).pts.filterTimers = s.pts.filterTimers ∧
    (formPoint0 s).pts.filterTime = s.pts.filterTime ∧ (formPoint0 s).pts.invert = s.pts.invert ∧
    (formPoint0 s).pts.publish = s.pts.publish ∧ (formPoint0 s).pts.driveMode = s.pts.driveMode ∧
    (formPoint0 s).pts.points.length = s.pts.points.length := by
  unfold formPoint0; simp

/-! ## Pins and the drive mode -/

/-- Setting the pins leaves every block but the pins, point 1 and the notices; the pins show what the drive mode in force
gives (R105, R112, R113). -/
@[simp] theorem setPins_frame (s : State) :
    (setPins s).pending = s.pending ∧ (setPins s).line = s.line ∧ (setPins s).ctl = s.ctl ∧ (setPins s).mir = s.mir ∧
    (setPins s).qry = s.qry ∧ (setPins s).par = s.par ∧ (setPins s).port = s.port ∧ (setPins s).evq = s.evq ∧
    (setPins s).time = s.time ∧
    (setPins s).out = { s.out with pins := shownPins s.out } ∧
    (setPins s).cond.defs = s.cond.defs ∧ (setPins s).cond.raw = s.cond.raw ∧ (setPins s).cond.sure = s.cond.sure ∧
    (setPins s).cond.confirmed = s.cond.confirmed ∧ (setPins s).cond.timers = s.cond.timers ∧
    (setPins s).pts.raw = s.pts.raw ∧ (setPins s).pts.filtered = s.pts.filtered ∧
    (setPins s).pts.filterTimers = s.pts.filterTimers ∧ (setPins s).pts.filterTime = s.pts.filterTime ∧
    (setPins s).pts.invert = s.pts.invert ∧ (setPins s).pts.publish = s.pts.publish ∧
    (setPins s).pts.driveMode = s.pts.driveMode ∧ (setPins s).pts.points.length = s.pts.points.length := by
  simp only [setPins]
  split
  · rename_i h; simp [h]
  · simp

theorem setPins_notices_config (s : State) (h : s.ctl.state = .config) :
    (setPins s).cond.notices = s.cond.notices := by
  simp only [setPins]
  split
  · rfl
  · rw [changePoint_notices_config _ _ _ _ (by simpa using h), setOut_cond]

/-- The points after setting the pins: point 1 follows, given that it showed the pins before (R48). -/
theorem pointAt_setPins (s : State) (j : Nat) (hl : 1 < s.pts.points.length)
    (h1 : pointAt s 1 = ⟨s.out.pins, .good⟩) :
    pointAt (setPins s) j = if j = 1 then ⟨shownPins s.out, .good⟩ else pointAt s j := by
  simp only [setPins]
  split
  · rename_i h
    by_cases hj : j = 1
    · subst hj; simp [h, h1]
    · simp [hj]
  · rw [pointAt_changePoint _ _ _ _ _ (by simpa using hl)]
    by_cases hj : j = 1 <;> simp [hj, pointAt]

/-- Setting the pins moves no point but point 1 (R48). -/
theorem pointAt_setPins_ne (s : State) (j : Nat) (hj : j ≠ 1) : pointAt (setPins s) j = pointAt s j := by
  simp only [setPins]
  split
  · rfl
  · unfold changePoint
    split
    · rfl
    · have : (1 : Nat) ≠ j := fun h => hj h.symm
      simp [pointAt, this]

/-- Giving a drive mode changes the drive modes, the pins, points 1 and 2 and the notices, nothing else (R40, R50, R113). -/
@[simp] theorem giveDriveMode_frame (m : DriveMode) (s : State) :
    (giveDriveMode m s).pending = s.pending ∧ (giveDriveMode m s).line = s.line ∧
    (giveDriveMode m s).ctl = { s.ctl with driveMode := m } ∧ (giveDriveMode m s).mir = s.mir ∧
    (giveDriveMode m s).qry = s.qry ∧ (giveDriveMode m s).par = s.par ∧ (giveDriveMode m s).port = s.port ∧
    (giveDriveMode m s).evq = s.evq ∧ (giveDriveMode m s).time = s.time ∧
    (giveDriveMode m s).out = { s.out with mode := outModeOf m, pins := shownPins { s.out with mode := outModeOf m } } ∧
    (giveDriveMode m s).cond.defs = s.cond.defs ∧ (giveDriveMode m s).cond.raw = s.cond.raw ∧
    (giveDriveMode m s).cond.sure = s.cond.sure ∧ (giveDriveMode m s).cond.confirmed = s.cond.confirmed ∧
    (giveDriveMode m s).cond.timers = s.cond.timers ∧ (giveDriveMode m s).pts.raw = s.pts.raw ∧
    (giveDriveMode m s).pts.filtered = s.pts.filtered ∧ (giveDriveMode m s).pts.filterTimers = s.pts.filterTimers ∧
    (giveDriveMode m s).pts.filterTime = s.pts.filterTime ∧ (giveDriveMode m s).pts.invert = s.pts.invert ∧
    (giveDriveMode m s).pts.publish = s.pts.publish ∧ (giveDriveMode m s).pts.driveMode = m ∧
    (giveDriveMode m s).pts.points.length = s.pts.points.length := by
  simp only [giveDriveMode]; simp

/-- The points after a drive mode is given: point 1 shows the pins, point 2's quality follows the mode (R48, R50). -/
theorem pointAt_giveDriveMode (m : DriveMode) (s : State) (j : Nat) (hl : 2 < s.pts.points.length)
    (h1 : pointAt s 1 = ⟨s.out.pins, .good⟩) :
    pointAt (giveDriveMode m s) j =
      if j = 2 then ⟨(pointAt s 2).value, qualityOf m⟩
      else if j = 1 then ⟨shownPins { s.out with mode := outModeOf m }, .good⟩ else pointAt s j := by
  simp only [giveDriveMode]
  rw [pointAt_changePoint _ _ _ _ _ (by simpa using hl)]
  by_cases h2 : j = 2
  · subst h2
    simp only [if_true]
    rw [pointAt_setPins_ne _ 2 (by omega)]; rfl
  · simp only [h2, if_false]
    exact pointAt_setPins (setCtl _ (setOut _ s)) j (by simpa using (by omega : 1 < s.pts.points.length)) h1

/-- Giving a drive mode moves no value of point 2. -/
theorem point2_giveDriveMode (m : DriveMode) (s : State) (hl : 2 < s.pts.points.length) :
    (pointAt (giveDriveMode m s) 2).value = (pointAt s 2).value := by
  simp only [giveDriveMode]
  rw [pointAt_changePoint _ _ _ _ _ (by simpa using hl)]
  simp only [if_true]
  rw [pointAt_setPins_ne _ 2 (by omega)]; rfl

/-- Deriving the drive mode again changes what giving it changes, when it differs (R40). -/
@[simp] theorem updateDriveMode_frame (s : State) :
    (updateDriveMode s).pending = s.pending ∧ (updateDriveMode s).line = s.line ∧
    (updateDriveMode s).ctl = { s.ctl with driveMode := deriveMode s.ctl.state s.ctl.holds } ∧
    (updateDriveMode s).mir = s.mir ∧
    (updateDriveMode s).qry = s.qry ∧ (updateDriveMode s).par = s.par ∧ (updateDriveMode s).port = s.port ∧
    (updateDriveMode s).evq = s.evq ∧ (updateDriveMode s).time = s.time ∧
    (updateDriveMode s).cond.defs = s.cond.defs ∧ (updateDriveMode s).cond.raw = s.cond.raw ∧
    (updateDriveMode s).cond.sure = s.cond.sure ∧ (updateDriveMode s).cond.confirmed = s.cond.confirmed ∧
    (updateDriveMode s).cond.timers = s.cond.timers ∧ (updateDriveMode s).pts.raw = s.pts.raw ∧
    (updateDriveMode s).pts.filtered = s.pts.filtered ∧ (updateDriveMode s).pts.filterTimers = s.pts.filterTimers ∧
    (updateDriveMode s).pts.filterTime = s.pts.filterTime ∧ (updateDriveMode s).pts.invert = s.pts.invert ∧
    (updateDriveMode s).pts.publish = s.pts.publish ∧
    (updateDriveMode s).out.edited = s.out.edited ∧ (updateDriveMode s).out.active = s.out.active ∧
    (updateDriveMode s).out.level = s.out.level ∧ (updateDriveMode s).out.latched = s.out.latched ∧
    (updateDriveMode s).out.pulse = s.out.pulse ∧ (updateDriveMode s).out.hostLevel = s.out.hostLevel ∧
    (updateDriveMode s).out.copy = s.out.copy ∧ (updateDriveMode s).out.parked = s.out.parked ∧
    (updateDriveMode s).pts.points.length = s.pts.points.length := by
  simp only [updateDriveMode]
  split
  · rename_i h; simp [h]
  · simp

theorem point2_updateDriveMode (s : State) (hl : 2 < s.pts.points.length) :
    (pointAt (updateDriveMode s) 2).value = (pointAt s 2).value := by
  simp only [updateDriveMode]
  split
  · rfl
  · exact point2_giveDriveMode _ _ hl

theorem giveDriveMode_notices_config (m : DriveMode) (s : State) (h : s.ctl.state = .config) :
    (giveDriveMode m s).cond.notices = s.cond.notices := by
  simp only [giveDriveMode]
  rw [changePoint_notices_config _ _ _ _ (by simpa using h)]
  rw [setPts_cond, setPins_notices_config _ (by simpa using h), setCtl_cond, setOut_cond]

theorem updateDriveMode_notices_config (s : State) (h : s.ctl.state = .config) :
    (updateDriveMode s).cond.notices = s.cond.notices := by
  simp only [updateDriveMode]
  split
  · rfl
  · exact giveDriveMode_notices_config _ _ h

/-- A change of the hold reasons: the reasons and the drive mode change, at most one HOLD event is posted (R40, R43). -/
@[simp] theorem setHolds_frame (h : HoldReasons) (s : State) :
    (setHolds h s).pending = s.pending ∧ (setHolds h s).line = s.line ∧
    (setHolds h s).mir = s.mir ∧ (setHolds h s).qry = s.qry ∧ (setHolds h s).port = s.port ∧ (setHolds h s).time = s.time ∧
    (setHolds h s).par.host = s.par.host ∧ (setHolds h s).par.permit = s.par.permit ∧
    (setHolds h s).ctl.state = s.ctl.state ∧ (setHolds h s).ctl.faultCause = s.ctl.faultCause ∧
    (setHolds h s).ctl.holds = h ∧ (setHolds h s).ctl.loneCounter = s.ctl.loneCounter ∧
    (setHolds h s).ctl.heard = s.ctl.heard ∧ (setHolds h s).ctl.ageTimer = s.ctl.ageTimer ∧
    (setHolds h s).ctl.held = s.ctl.held ∧ (setHolds h s).ctl.edited = s.ctl.edited ∧
    (setHolds h s).ctl.editedSet = s.ctl.editedSet ∧ (setHolds h s).ctl.committed = s.ctl.committed ∧
    (setHolds h s).ctl.signature = s.ctl.signature ∧
    (setHolds h s).cond.defs = s.cond.defs ∧ (setHolds h s).cond.raw = s.cond.raw ∧
    (setHolds h s).cond.sure = s.cond.sure ∧ (setHolds h s).cond.confirmed = s.cond.confirmed ∧
    (setHolds h s).cond.timers = s.cond.timers ∧ (setHolds h s).pts.raw = s.pts.raw ∧
    (setHolds h s).pts.filtered = s.pts.filtered ∧ (setHolds h s).pts.filterTimers = s.pts.filterTimers ∧
    (setHolds h s).pts.filterTime = s.pts.filterTime ∧ (setHolds h s).pts.invert = s.pts.invert ∧
    (setHolds h s).pts.publish = s.pts.publish ∧
    (setHolds h s).out.edited = s.out.edited ∧ (setHolds h s).out.active = s.out.active ∧
    (setHolds h s).out.level = s.out.level ∧ (setHolds h s).out.latched = s.out.latched ∧
    (setHolds h s).out.pulse = s.out.pulse ∧ (setHolds h s).out.hostLevel = s.out.hostLevel ∧
    (setHolds h s).out.copy = s.out.copy ∧ (setHolds h s).out.parked = s.out.parked ∧
    (setHolds h s).pts.points.length = s.pts.points.length := by
  simp only [setHolds]
  split
  · rename_i hh; simp [hh]
  · simp

theorem setHolds_posted (h : HoldReasons) (s : State) : Posted s.evq (setHolds h s).evq := by
  simp only [setHolds]
  split
  · exact .refl _
  · exact Posted.trans (.of_eq (by simp)) (post_posted _ _ _ _ (by decide))

theorem point2_setHolds (h : HoldReasons) (s : State) (hl : 2 < s.pts.points.length) :
    (pointAt (setHolds h s) 2).value = (pointAt s 2).value := by
  simp only [setHolds]
  split
  · rfl
  · rw [pointAt_post, point2_updateDriveMode _ (by simpa using hl)]; rfl

theorem setHolds_notices_config (h : HoldReasons) (s : State) (hc : s.ctl.state = .config) :
    (setHolds h s).cond.notices = s.cond.notices := by
  simp only [setHolds]
  split
  · rfl
  · rw [(post_frame _ _ _ _).2.2.2.2.2.1, updateDriveMode_notices_config _ (by simpa using hc), setCtl_cond]

/-- The STATE event changes nothing but the queue and word 29 (R42). -/
@[simp] theorem postState_frame (c : StateCause) (s : State) :
    (postState c s).pending = s.pending ∧ (postState c s).line = s.line ∧ (postState c s).ctl = s.ctl ∧
    (postState c s).pts = s.pts ∧ (postState c s).mir = s.mir ∧ (postState c s).cond = s.cond ∧
    (postState c s).out = s.out ∧ (postState c s).qry = s.qry ∧ (postState c s).port = s.port ∧
    (postState c s).time = s.time ∧ (postState c s).par.host = s.par.host ∧
    (postState c s).par.permit = s.par.permit := by
  simp [postState]

theorem postState_posted (c : StateCause) (s : State) : Posted s.evq (postState c s).evq :=
  post_posted _ _ _ _ (by decide)

@[simp] theorem pointAt_postState (c : StateCause) (s : State) (j : Nat) : pointAt (postState c s) j = pointAt s j :=
  pointAt_congr (by simp) j

end Sys2Proof.Machine
end

