-- ==== Sys2Proof/Laws/Conditions.lean ====
section
/-! SUPPORT. What the output unit's updates and the condition unit's passes can do and what they leave (05, 06). -/

namespace Sys2Proof.Machine

/-! ## The output unit's updates -/

/-- A latch edge changes the mark, the level, the queue and word 29 (R107, R118). -/
@[simp] theorem latchEdge_frame (i k : Nat) (s : State) :
    (latchEdge i k s).pending = s.pending ∧ (latchEdge i k s).line = s.line ∧ (latchEdge i k s).ctl = s.ctl ∧
    (latchEdge i k s).pts = s.pts ∧ (latchEdge i k s).mir = s.mir ∧ (latchEdge i k s).cond = s.cond ∧
    (latchEdge i k s).qry = s.qry ∧ (latchEdge i k s).port = s.port ∧ (latchEdge i k s).time = s.time ∧
    (latchEdge i k s).par.host = s.par.host ∧ (latchEdge i k s).par.permit = s.par.permit ∧
    (latchEdge i k s).out = (if bitOf s.out.latched i then s.out else
      { s.out with latched := putBit s.out.latched i true, level := putBit s.out.level i true }) := by
  simp only [latchEdge]; split <;> simp

theorem latchEdge_posted (i k : Nat) (s : State) : Posted s.evq (latchEdge i k s).evq := by
  simp only [latchEdge]; split
  · exact .refl _
  · exact Posted.trans (.of_eq (by simp)) (post_posted _ _ _ _ (by decide))

/-- A line's rule acting on an edge leaves every block but the output unit, the queue and word 29 (R105). -/
@[simp] theorem lineEdge_frame (k : Nat) (b : Bool) (i : Nat) (s : State) :
    (lineEdge k b i s).pending = s.pending ∧ (lineEdge k b i s).line = s.line ∧ (lineEdge k b i s).ctl = s.ctl ∧
    (lineEdge k b i s).pts = s.pts ∧ (lineEdge k b i s).mir = s.mir ∧ (lineEdge k b i s).cond = s.cond ∧
    (lineEdge k b i s).qry = s.qry ∧ (lineEdge k b i s).port = s.port ∧ (lineEdge k b i s).time = s.time ∧
    (lineEdge k b i s).par.host = s.par.host ∧ (lineEdge k b i s).par.permit = s.par.permit ∧
    (lineEdge k b i s).out.edited = s.out.edited ∧ (lineEdge k b i s).out.active = s.out.active ∧
    (lineEdge k b i s).out.hostLevel = s.out.hostLevel ∧ (lineEdge k b i s).out.copy = s.out.copy ∧
    (lineEdge k b i s).out.parked = s.out.parked ∧ (lineEdge k b i s).out.mode = s.out.mode ∧
    (lineEdge k b i s).out.pins = s.out.pins ∧ (lineEdge k b i s).out.pulse.length = s.out.pulse.length := by
  unfold lineEdge
  repeat' split
  all_goals first | (simp; done) | (simp; split <;> simp)

theorem lineEdge_posted (k : Nat) (b : Bool) (i : Nat) (s : State) : Posted s.evq (lineEdge k b i s).evq := by
  unfold lineEdge
  repeat' split
  all_goals first | exact latchEdge_posted _ _ _ | exact .refl _

@[simp] theorem linesEdge_frame (k : Nat) (b : Bool) (l : List Nat) (s : State) :
    (linesEdge k b l s).pending = s.pending ∧ (linesEdge k b l s).line = s.line ∧ (linesEdge k b l s).ctl = s.ctl ∧
    (linesEdge k b l s).pts = s.pts ∧ (linesEdge k b l s).mir = s.mir ∧ (linesEdge k b l s).cond = s.cond ∧
    (linesEdge k b l s).qry = s.qry ∧ (linesEdge k b l s).port = s.port ∧ (linesEdge k b l s).time = s.time ∧
    (linesEdge k b l s).par.host = s.par.host ∧ (linesEdge k b l s).par.permit = s.par.permit ∧
    (linesEdge k b l s).out.edited = s.out.edited ∧ (linesEdge k b l s).out.active = s.out.active ∧
    (linesEdge k b l s).out.hostLevel = s.out.hostLevel ∧ (linesEdge k b l s).out.copy = s.out.copy ∧
    (linesEdge k b l s).out.parked = s.out.parked ∧ (linesEdge k b l s).out.mode = s.out.mode ∧
    (linesEdge k b l s).out.pins = s.out.pins ∧ (linesEdge k b l s).out.pulse.length = s.out.pulse.length := by
  induction l generalizing s with
  | nil => simp [linesEdge]
  | cons i rest ih => simp [linesEdge, ih]

theorem linesEdge_posted (k : Nat) (b : Bool) (l : List Nat) (s : State) : Posted s.evq (linesEdge k b l s).evq := by
  induction l generalizing s with
  | nil => exact .refl _
  | cons i rest ih => exact (lineEdge_posted k b i s).trans (ih _)

/-- A confirmed change at the output unit leaves the blocks it is not told to touch (R105). -/
@[simp] theorem outputUpdate_frame (k : Nat) (b : Bool) (s : State) :
    (outputUpdate k b s).pending = s.pending ∧ (outputUpdate k b s).line = s.line ∧
    (outputUpdate k b s).ctl = s.ctl ∧ (outputUpdate k b s).mir = s.mir ∧ (outputUpdate k b s).qry = s.qry ∧
    (outputUpdate k b s).port = s.port ∧ (outputUpdate k b s).time = s.time ∧
    (outputUpdate k b s).par.host = s.par.host ∧ (outputUpdate k b s).par.permit = s.par.permit ∧
    (outputUpdate k b s).cond.defs = s.cond.defs ∧ (outputUpdate k b s).cond.raw = s.cond.raw ∧
    (outputUpdate k b s).cond.sure = s.cond.sure ∧ (outputUpdate k b s).cond.confirmed = s.cond.confirmed ∧
    (outputUpdate k b s).cond.timers = s.cond.timers ∧
    (outputUpdate k b s).pts.raw = s.pts.raw ∧ (outputUpdate k b s).pts.filtered = s.pts.filtered ∧
    (outputUpdate k b s).pts.filterTimers = s.pts.filterTimers ∧ (outputUpdate k b s).pts.filterTime = s.pts.filterTime ∧
    (outputUpdate k b s).pts.invert = s.pts.invert ∧ (outputUpdate k b s).pts.publish = s.pts.publish ∧
    (outputUpdate k b s).pts.driveMode = s.pts.driveMode ∧
    (outputUpdate k b s).pts.points.length = s.pts.points.length ∧
    (outputUpdate k b s).out.edited = s.out.edited ∧ (outputUpdate k b s).out.active = s.out.active ∧
    (outputUpdate k b s).out.hostLevel = s.out.hostLevel ∧ (outputUpdate k b s).out.copy = putBit s.out.copy k b ∧
    (outputUpdate k b s).out.parked = s.out.parked ∧ (outputUpdate k b s).out.mode = s.out.mode ∧
    (outputUpdate k b s).out.pins = shownPins (outputUpdate k b s).out ∧
    (outputUpdate k b s).out.pulse.length = s.out.pulse.length := by
  simp only [outputUpdate]; simp [shownPins, ruleLevels]

theorem outputUpdate_posted (k : Nat) (b : Bool) (s : State) : Posted s.evq (outputUpdate k b s).evq := by
  simp only [outputUpdate, setPins_frame]
  exact Posted.trans (.of_eq (by simp)) (linesEdge_posted _ _ _ _)

theorem outputUpdate_notices_config (k : Nat) (b : Bool) (s : State) (h : s.ctl.state = .config) :
    (outputUpdate k b s).cond.notices = s.cond.notices := by
  simp only [outputUpdate]
  rw [setPins_notices_config _ (by simpa using h)]; simp

theorem pointAt_outputUpdate_ne (k : Nat) (b : Bool) (s : State) (j : Nat) (hj : j ≠ 1) :
    pointAt (outputUpdate k b s) j = pointAt s j := by
  simp only [outputUpdate]
  rw [pointAt_setPins_ne _ _ hj]
  exact pointAt_congr (by simp) j

/-! ## Confirmed changes and passes -/

/-- A confirmed change of a condition: what it leaves, and what the condition unit's record becomes (R96). -/
@[simp] theorem confirm_frame (k : Nat) (d : Condition) (b e : Bool) (s : State) :
    (confirm k d b e s).pending = s.pending ∧ (confirm k d b e s).line = s.line ∧
    (confirm k d b e s).ctl = s.ctl ∧ (confirm k d b e s).mir = s.mir ∧ (confirm k d b e s).qry = s.qry ∧
    (confirm k d b e s).port = s.port ∧ (confirm k d b e s).time = s.time ∧
    (confirm k d b e s).par.host = s.par.host ∧ (confirm k d b e s).par.permit = s.par.permit ∧
    (confirm k d b e s).cond.defs = s.cond.defs ∧ (confirm k d b e s).cond.raw = s.cond.raw ∧
    (confirm k d b e s).cond.sure = s.cond.sure ∧ (confirm k d b e s).cond.confirmed = putBit s.cond.confirmed k b ∧
    (confirm k d b e s).cond.timers = s.cond.timers ∧
    (confirm k d b e s).pts.raw = s.pts.raw ∧ (confirm k d b e s).pts.filtered = s.pts.filtered ∧
    (confirm k d b e s).pts.filterTimers = s.pts.filterTimers ∧ (confirm k d b e s).pts.filterTime = s.pts.filterTime ∧
    (confirm k d b e s).pts.invert = s.pts.invert ∧ (confirm k d b e s).pts.publish = s.pts.publish ∧
    (confirm k d b e s).pts.driveMode = s.pts.driveMode ∧
    (confirm k d b e s).pts.points.length = s.pts.points.length ∧
    (confirm k d b e s).out.edited = s.out.edited ∧ (confirm k d b e s).out.active = s.out.active ∧
    (confirm k d b e s).out.hostLevel = s.out.hostLevel ∧ (confirm k d b e s).out.copy = putBit s.out.copy k b ∧
    (confirm k d b e s).out.parked = s.out.parked ∧ (confirm k d b e s).out.mode = s.out.mode ∧
    (confirm k d b e s).out.pins = shownPins (confirm k d b e s).out ∧
    (confirm k d b e s).out.pulse.length = s.out.pulse.length := by
  simp only [confirm]; split <;> simp

theorem confirm_posted (k : Nat) (d : Condition) (b e : Bool) (s : State) : Posted s.evq (confirm k d b e s).evq := by
  simp only [confirm]
  refine Posted.trans ?_ (outputUpdate_posted _ _ _)
  split
  · exact Posted.trans (.of_eq (by simp)) (post_posted _ _ _ _ (by decide))
  · exact .of_eq (by simp)

theorem confirm_notices_config (k : Nat) (d : Condition) (b e : Bool) (s : State) (h : s.ctl.state = .config) :
    (confirm k d b e s).cond.notices = s.cond.notices := by
  simp only [confirm]
  rw [outputUpdate_notices_config _ _ _ (by split <;> simpa using h)]
  split <;> simp

/-- The points after a confirmed change: bit `k` of point 2 is the new result, points 0 and 3 to 7 stand (R49, R96). -/
theorem pointAt_confirm (k : Nat) (d : Condition) (b e : Bool) (s : State) (j : Nat) (hj : j ≠ 1)
    (hl : 2 < s.pts.points.length) :
    pointAt (confirm k d b e s) j =
      if j = 2 then ⟨putBit (pointAt s 2).value k b, (pointAt s 2).quality⟩ else pointAt s j := by
  simp only [confirm]
  rw [pointAt_outputUpdate_ne _ _ _ _ hj]
  split
  · rw [pointAt_storePoint _ _ _ _ (by simpa using hl)]
    simp [pointAt]
  · rw [pointAt_storePoint _ _ _ _ (by simpa using hl)]
    simp [pointAt]

/-- What an evaluation's confirmation can do, once and for all (R92, R93): nothing, cancel the timer, start it, or confirm at
once. -/
theorem confirmation_cases (k : Nat) (d : Condition) (raw : Bool) (s : State) :
    (confirmation k d raw s = (s, false) ∧
      ((isRunning (timerAt s.cond.timers k) = true ∧ raw ≠ bitOf s.cond.confirmed k) ∨
       (isRunning (timerAt s.cond.timers k) = false ∧ raw = bitOf s.cond.confirmed k))) ∨
    (confirmation k d raw s = (setConfirmTimer k .idle s, false) ∧ isRunning (timerAt s.cond.timers k) = true ∧
      raw = bitOf s.cond.confirmed k) ∨
    (confirmation k d raw s = (setConfirmTimer k (startTimer raw (confirmTime d raw) s) s, false) ∧
      timerAt s.cond.timers k = .idle ∧ raw ≠ bitOf s.cond.confirmed k ∧ confirmTime d raw ≠ 0) ∨
    (confirmation k d raw s = (confirm k d raw false s, true) ∧ timerAt s.cond.timers k = .idle ∧
      raw ≠ bitOf s.cond.confirmed k ∧ confirmTime d raw = 0) := by
  unfold confirmation
  split
  · rename_i h
    split
    · right; left; simp_all [isRunning]
    · left; simp_all [isRunning]
  · rename_i h
    split
    · left; simp_all [isRunning]
    · split
      · right; right; right; simp_all
      · right; right; left; simp_all

/-- An evaluation leaves everything a confirmed change leaves (R90, R92). -/
@[simp] theorem evaluate_frame (k : Nat) (d : Condition) (s : State) :
    (evaluate k d s).1.pending = s.pending ∧ (evaluate k d s).1.line = s.line ∧
    (evaluate k d s).1.ctl = s.ctl ∧ (evaluate k d s).1.mir = s.mir ∧ (evaluate k d s).1.qry = s.qry ∧
    (evaluate k d s).1.port = s.port ∧ (evaluate k d s).1.time = s.time ∧
    (evaluate k d s).1.par.host = s.par.host ∧ (evaluate k d s).1.par.permit = s.par.permit ∧
    (evaluate k d s).1.cond.defs = s.cond.defs ∧
    (evaluate k d s).1.pts.raw = s.pts.raw ∧ (evaluate k d s).1.pts.filtered = s.pts.filtered ∧
    (evaluate k d s).1.pts.filterTimers = s.pts.filterTimers ∧ (evaluate k d s).1.pts.filterTime = s.pts.filterTime ∧
    (evaluate k d s).1.pts.invert = s.pts.invert ∧ (evaluate k d s).1.pts.publish = s.pts.publish ∧
    (evaluate k d s).1.pts.driveMode = s.pts.driveMode ∧
    (evaluate k d s).1.pts.points.length = s.pts.points.length ∧
    (evaluate k d s).1.out.edited = s.out.edited ∧ (evaluate k d s).1.out.active = s.out.active ∧
    (evaluate k d s).1.out.hostLevel = s.out.hostLevel ∧ (evaluate k d s).1.out.parked = s.out.parked ∧
    (evaluate k d s).1.out.mode = s.out.mode ∧ (evaluate k d s).1.out.pulse.length = s.out.pulse.length := by
  simp only [evaluate]
  rcases confirmation_cases k d (rawResult s k d) (storeResult k (rawResult s k d) (allKnown s d) s) with h | h | h | h <;>
    rw [h.1] <;> simp

theorem evaluate_posted (k : Nat) (d : Condition) (s : State) : Posted s.evq (evaluate k d s).1.evq := by
  simp only [evaluate]
  rcases confirmation_cases k d (rawResult s k d) (storeResult k (rawResult s k d) (allKnown s d) s) with h | h | h | h <;>
    rw [h.1]
  · exact .of_eq (by simp)
  · exact .of_eq (by simp)
  · exact .of_eq (by simp)
  · have h2 := confirm_posted k d (rawResult s k d) false (storeResult k (rawResult s k d) (allKnown s d) s)
    rwa [storeResult_evq] at h2

theorem evaluate_notices_config (k : Nat) (d : Condition) (s : State) (hc : s.ctl.state = .config) :
    (evaluate k d s).1.cond.notices = s.cond.notices := by
  simp only [evaluate]
  rcases confirmation_cases k d (rawResult s k d) (storeResult k (rawResult s k d) (allKnown s d) s) with h | h | h | h <;>
    rw [h.1]
  · simp
  · simp
  · simp
  · simp only []
    rw [confirm_notices_config _ _ _ _ _ (by simpa using hc)]; simp

/-- A property that every evaluation keeps is kept by a pass (R89). -/
theorem passOver_keeps {P : State → Prop} (hev : ∀ k d s, condAt s.cond k = some d → P s → P (evaluate k d s).1)
    (l : List Nat) (m : Word) (s : State) (h : P s) : P (passOver l m s) := by
  induction l generalizing m s with
  | nil => exact h
  | cons k rest ih =>
    unfold passOver
    split
    · split
      · rename_i d hd
        exact ih _ _ (hev k d s hd h)
      · exact ih _ _ h
    · exact ih _ _ h

/-- A property of places below 16 that every evaluation of such a place keeps is kept by a pass. -/
theorem pass_keeps {P : State → Prop} (hev : ∀ k d s, k < 16 → condAt s.cond k = some d → P s → P (evaluate k d s).1)
    (m : Word) (s : State) (h : P s) : P (pass m s) := by
  have : ∀ (l : List Nat) (_ : ∀ k ∈ l, k < 16) (m : Word) (s : State), P s → P (passOver l m s) := by
    intro l
    induction l with
    | nil => intro _ m s h; exact h
    | cons k rest ih =>
      intro hl m s h
      unfold passOver
      have ihr := ih (fun x hx => hl x (List.mem_cons_of_mem _ hx))
      split
      · split
        · rename_i d hd
          exact ihr _ _ (hev k d s (hl k (List.mem_cons_self ..)) hd h)
        · exact ihr _ _ h
      · exact ihr _ _ h
  exact this _ (by simp) m s h

@[simp] theorem pass_frame (m : Word) (s : State) :
    (pass m s).pending = s.pending ∧ (pass m s).line = s.line ∧ (pass m s).ctl = s.ctl ∧ (pass m s).mir = s.mir ∧
    (pass m s).qry = s.qry ∧ (pass m s).port = s.port ∧ (pass m s).time = s.time ∧
    (pass m s).par.host = s.par.host ∧ (pass m s).par.permit = s.par.permit ∧ (pass m s).cond.defs = s.cond.defs ∧
    (pass m s).pts.raw = s.pts.raw ∧ (pass m s).pts.filtered = s.pts.filtered ∧
    (pass m s).pts.filterTimers = s.pts.filterTimers ∧ (pass m s).pts.filterTime = s.pts.filterTime ∧
    (pass m s).pts.invert = s.pts.invert ∧ (pass m s).pts.publish = s.pts.publish ∧
    (pass m s).pts.driveMode = s.pts.driveMode ∧ (pass m s).pts.points.length = s.pts.points.length ∧
    (pass m s).out.edited = s.out.edited ∧ (pass m s).out.active = s.out.active ∧
    (pass m s).out.hostLevel = s.out.hostLevel ∧ (pass m s).out.parked = s.out.parked ∧
    (pass m s).out.mode = s.out.mode ∧ (pass m s).out.pulse.length = s.out.pulse.length := by
  refine pass_keeps (P := fun t =>
    t.pending = s.pending ∧ t.line = s.line ∧ t.ctl = s.ctl ∧ t.mir = s.mir ∧
    t.qry = s.qry ∧ t.port = s.port ∧ t.time = s.time ∧
    t.par.host = s.par.host ∧ t.par.permit = s.par.permit ∧ t.cond.defs = s.cond.defs ∧
    t.pts.raw = s.pts.raw ∧ t.pts.filtered = s.pts.filtered ∧
    t.pts.filterTimers = s.pts.filterTimers ∧ t.pts.filterTime = s.pts.filterTime ∧
    t.pts.invert = s.pts.invert ∧ t.pts.publish = s.pts.publish ∧
    t.pts.driveMode = s.pts.driveMode ∧ t.pts.points.length = s.pts.points.length ∧
    t.out.edited = s.out.edited ∧ t.out.active = s.out.active ∧
    t.out.hostLevel = s.out.hostLevel ∧ t.out.parked = s.out.parked ∧
    t.out.mode = s.out.mode ∧ t.out.pulse.length = s.out.pulse.length) ?_ m s (by simp)
  intro k d t _ _ ht
  simpa using ht

theorem pass_posted (m : Word) (s : State) : Posted s.evq (pass m s).evq :=
  pass_keeps (P := fun t => Posted s.evq t.evq) (fun k d t _ _ h => h.trans (evaluate_posted k d t)) m s (.refl _)

/-- Taking a notice leaves what a pass leaves (R88, R90). -/
@[simp] theorem takeNotice_frame (s : State) :
    (takeNotice s).pending = s.pending ∧ (takeNotice s).line = s.line ∧ (takeNotice s).ctl = s.ctl ∧
    (takeNotice s).mir = s.mir ∧ (takeNotice s).qry = s.qry ∧ (takeNotice s).port = s.port ∧
    (takeNotice s).time = s.time ∧ (takeNotice s).par.host = s.par.host ∧ (takeNotice s).par.permit = s.par.permit ∧
    (takeNotice s).cond.defs = s.cond.defs ∧ (takeNotice s).pts.points.length = s.pts.points.length ∧
    (takeNotice s).pts.driveMode = s.pts.driveMode ∧ (takeNotice s).out.mode = s.out.mode ∧
    (takeNotice s).out.edited = s.out.edited ∧ (takeNotice s).out.active = s.out.active ∧
    (takeNotice s).out.pulse.length = s.out.pulse.length := by
  unfold takeNotice; split
  · simp
  · split <;> simp

theorem takeNotice_posted (s : State) : Posted s.evq (takeNotice s).evq := by
  unfold takeNotice; split
  · exact .refl _
  · split
    · exact .refl _
    · exact Posted.trans (.of_eq (by simp)) (pass_posted _ _)

/-- An expiry of a confirm timer leaves what a confirmed change leaves (R94). -/
@[simp] theorem expireConfirm_frame (k : Nat) (s : State) :
    (expireConfirm k s).pending = s.pending ∧ (expireConfirm k s).line = s.line ∧ (expireConfirm k s).ctl = s.ctl ∧
    (expireConfirm k s).mir = s.mir ∧ (expireConfirm k s).qry = s.qry ∧ (expireConfirm k s).port = s.port ∧
    (expireConfirm k s).time = s.time ∧ (expireConfirm k s).par.host = s.par.host ∧
    (expireConfirm k s).par.permit = s.par.permit ∧ (expireConfirm k s).cond.defs = s.cond.defs ∧
    (expireConfirm k s).pts.points.length = s.pts.points.length ∧
    (expireConfirm k s).pts.driveMode = s.pts.driveMode ∧ (expireConfirm k s).out.mode = s.out.mode ∧
    (expireConfirm k s).out.edited = s.out.edited ∧ (expireConfirm k s).out.active = s.out.active ∧
    (expireConfirm k s).out.pulse.length = s.out.pulse.length := by
  unfold expireConfirm; split <;> simp

theorem expireConfirm_posted (k : Nat) (s : State) : Posted s.evq (expireConfirm k s).evq := by
  unfold expireConfirm; split
  · rename_i b _ d _ _
    have h := confirm_posted k d b true (setConfirmTimer k .idle s)
    rw [setConfirmTimer_evq] at h
    exact h.trans (.of_eq (by simp))
  · exact .refl _

/-- Parking changes the output unit, point 1 and the notices, nothing else (R120). -/
@[simp] theorem parkOutputs_frame (s : State) :
    (parkOutputs s).pending = s.pending ∧ (parkOutputs s).line = s.line ∧ (parkOutputs s).ctl = s.ctl ∧
    (parkOutputs s).mir = s.mir ∧ (parkOutputs s).qry = s.qry ∧ (parkOutputs s).par = s.par ∧
    (parkOutputs s).port = s.port ∧ (parkOutputs s).evq = s.evq ∧ (parkOutputs s).time = s.time ∧
    (parkOutputs s).cond.defs = s.cond.defs ∧ (parkOutputs s).cond.raw = s.cond.raw ∧
    (parkOutputs s).cond.sure = s.cond.sure ∧ (parkOutputs s).cond.confirmed = s.cond.confirmed ∧
    (parkOutputs s).cond.timers = s.cond.timers ∧ (parkOutputs s).pts.raw = s.pts.raw ∧
    (parkOutputs s).pts.filtered = s.pts.filtered ∧ (parkOutputs s).pts.filterTimers = s.pts.filterTimers ∧
    (parkOutputs s).pts.filterTime = s.pts.filterTime ∧ (parkOutputs s).pts.invert = s.pts.invert ∧
    (parkOutputs s).pts.publish = s.pts.publish ∧ (parkOutputs s).pts.driveMode = s.pts.driveMode ∧
    (parkOutputs s).pts.points.length = s.pts.points.length ∧
    (parkOutputs s).out = startRules s.out.active
      { s.out with parked := safeLevels s.out.active, mode := .config, pins := safeLevels s.out.active } := by
  simp only [parkOutputs]; simp [shownPins]

/-- A pulse expiry changes the output unit, point 1 and the notices, nothing else (R108). -/
@[simp] theorem expirePulse_frame (i : Nat) (s : State) :
    (expirePulse i s).pending = s.pending ∧ (expirePulse i s).line = s.line ∧ (expirePulse i s).ctl = s.ctl ∧
    (expirePulse i s).mir = s.mir ∧ (expirePulse i s).qry = s.qry ∧ (expirePulse i s).par = s.par ∧
    (expirePulse i s).port = s.port ∧ (expirePulse i s).evq = s.evq ∧ (expirePulse i s).time = s.time ∧
    (expirePulse i s).cond.defs = s.cond.defs ∧ (expirePulse i s).cond.raw = s.cond.raw ∧
    (expirePulse i s).cond.sure = s.cond.sure ∧ (expirePulse i s).cond.confirmed = s.cond.confirmed ∧
    (expirePulse i s).cond.timers = s.cond.timers ∧ (expirePulse i s).pts.raw = s.pts.raw ∧
    (expirePulse i s).pts.filtered = s.pts.filtered ∧ (expirePulse i s).pts.filterTimers = s.pts.filterTimers ∧
    (expirePulse i s).pts.filterTime = s.pts.filterTime ∧ (expirePulse i s).pts.invert = s.pts.invert ∧
    (expirePulse i s).pts.publish = s.pts.publish ∧ (expirePulse i s).pts.driveMode = s.pts.driveMode ∧
    (expirePulse i s).pts.points.length = s.pts.points.length ∧
    (expirePulse i s).out.edited = s.out.edited ∧ (expirePulse i s).out.active = s.out.active ∧
    (expirePulse i s).out.hostLevel = s.out.hostLevel ∧ (expirePulse i s).out.copy = s.out.copy ∧
    (expirePulse i s).out.latched = s.out.latched ∧
    (expirePulse i s).out.parked = s.out.parked ∧ (expirePulse i s).out.mode = s.out.mode ∧
    (expirePulse i s).out.pulse.length = s.out.pulse.length := by
  unfold expirePulse; split <;> simp

end Sys2Proof.Machine
end

