-- ==== Sys2Proof/Laws/Tables.lean ====
section
/-! SUPPORT. What the mirror table's and the query unit's operations can do and what they leave (04, 07). -/

namespace Sys2Proof.Machine

/-! ## The mirror table -/

/-- An ENTRY event changes nothing but the queue and word 29 (R73). -/
@[simp] theorem postEntry_frame (i : Nat) (a b : Entry) (s : State) :
    (postEntry i a b s).pending = s.pending ∧ (postEntry i a b s).line = s.line ∧ (postEntry i a b s).ctl = s.ctl ∧
    (postEntry i a b s).pts = s.pts ∧ (postEntry i a b s).mir = s.mir ∧ (postEntry i a b s).cond = s.cond ∧
    (postEntry i a b s).out = s.out ∧ (postEntry i a b s).qry = s.qry ∧ (postEntry i a b s).port = s.port ∧
    (postEntry i a b s).time = s.time ∧ (postEntry i a b s).par.host = s.par.host ∧
    (postEntry i a b s).par.permit = s.par.permit := by
  unfold postEntry; split <;> simp

theorem postEntry_posted (i : Nat) (a b : Entry) (s : State) : Posted s.evq (postEntry i a b s).evq := by
  unfold postEntry; split
  · exact post_posted _ _ _ _ (by decide)
  · exact .refl _

@[simp] theorem postEntries_frame (f : Entry → Entry) (i : Nat) (l : List (Option Entry)) (s : State) :
    (postEntries f i l s).pending = s.pending ∧ (postEntries f i l s).line = s.line ∧
    (postEntries f i l s).ctl = s.ctl ∧ (postEntries f i l s).pts = s.pts ∧ (postEntries f i l s).mir = s.mir ∧
    (postEntries f i l s).cond = s.cond ∧ (postEntries f i l s).out = s.out ∧ (postEntries f i l s).qry = s.qry ∧
    (postEntries f i l s).port = s.port ∧ (postEntries f i l s).time = s.time ∧
    (postEntries f i l s).par.host = s.par.host ∧ (postEntries f i l s).par.permit = s.par.permit := by
  induction l generalizing i s with
  | nil => simp [postEntries]
  | cons o rest ih => cases o <;> simp [postEntries, ih]

theorem postEntries_posted (f : Entry → Entry) (i : Nat) (l : List (Option Entry)) (s : State) :
    Posted s.evq (postEntries f i l s).evq := by
  induction l generalizing i s with
  | nil => exact .refl _
  | cons o rest ih =>
    cases o with
    | none => exact ih _ _
    | some e => exact (postEntry_posted _ _ _ _).trans (ih _ _)

/-- An update of the table changes every entry by `f`, posts, and gives at most one notice (R66, R70, R71). -/
@[simp] theorem updateMirror_frame (f : Entry → Entry) (p : Entry → Bool) (s : State) :
    (updateMirror f p s).pending = s.pending ∧ (updateMirror f p s).line = s.line ∧
    (updateMirror f p s).ctl = s.ctl ∧ (updateMirror f p s).pts = s.pts ∧
    (updateMirror f p s).mir = s.mir.map (Option.map f) ∧
    (updateMirror f p s).cond.defs = s.cond.defs ∧ (updateMirror f p s).cond.raw = s.cond.raw ∧
    (updateMirror f p s).cond.sure = s.cond.sure ∧ (updateMirror f p s).cond.confirmed = s.cond.confirmed ∧
    (updateMirror f p s).cond.timers = s.cond.timers ∧
    (updateMirror f p s).cond.notices = (if (placesWhere p 0 s.mir).isEmpty ∨ s.ctl.state = .config then s.cond.notices
      else s.cond.notices ++ [.entries (placesWhere p 0 s.mir)]) ∧
    (updateMirror f p s).out = s.out ∧ (updateMirror f p s).qry = s.qry ∧ (updateMirror f p s).port = s.port ∧
    (updateMirror f p s).time = s.time ∧ (updateMirror f p s).par.host = s.par.host ∧
    (updateMirror f p s).par.permit = s.par.permit := by
  simp only [updateMirror]
  split
  · rename_i h; simp [h]
  · rename_i h; simp [h]

theorem updateMirror_posted (f : Entry → Entry) (p : Entry → Bool) (s : State) :
    Posted s.evq (updateMirror f p s).evq := by
  have h := postEntries_posted f 0 s.mir (setMir (s.mir.map (Option.map f)) s)
  rw [setMir_evq] at h
  simp only [updateMirror]
  split
  · exact h
  · exact h.trans (.of_eq (by simp))

/-- Staling one entry changes at most that entry, the queue and the notices (R68). -/
@[simp] theorem staleEntryAt_frame (i : Nat) (s : State) :
    (staleEntryAt i s).pending = s.pending ∧ (staleEntryAt i s).line = s.line ∧ (staleEntryAt i s).ctl = s.ctl ∧
    (staleEntryAt i s).pts = s.pts ∧ (staleEntryAt i s).out = s.out ∧ (staleEntryAt i s).qry = s.qry ∧
    (staleEntryAt i s).port = s.port ∧ (staleEntryAt i s).time = s.time ∧
    (staleEntryAt i s).par.host = s.par.host ∧ (staleEntryAt i s).par.permit = s.par.permit ∧
    (staleEntryAt i s).cond.defs = s.cond.defs ∧ (staleEntryAt i s).cond.raw = s.cond.raw ∧
    (staleEntryAt i s).cond.sure = s.cond.sure ∧ (staleEntryAt i s).cond.confirmed = s.cond.confirmed ∧
    (staleEntryAt i s).cond.timers = s.cond.timers := by
  simp only [staleEntryAt]; repeat' split
  all_goals simp

theorem staleEntryAt_posted (i : Nat) (s : State) : Posted s.evq (staleEntryAt i s).evq := by
  simp only [staleEntryAt]; repeat' split
  · exact .refl _
  · rename_i e _ _
    have h := postEntry_posted i e (staleIfReached e) (setMir (s.mir.set i (some (staleIfReached e))) s)
    rw [setMir_evq] at h
    exact h.trans (.of_eq (by simp))
  · exact .refl _

@[simp] theorem applyFrame_eq (f : SlotFrame) (s : State) : applyFrame f s =
    updateMirror (applyToEntry f s.line.round) (fun e => decide (e.source = f.sender)) s := rfl
@[simp] theorem ageStep_eq (s : State) : ageStep s =
    updateMirror ageEntry (fun e => decide ((ageEntry e).status ≠ e.status)) s := rfl
@[simp] theorem restartMirror_eq (s : State) : restartMirror s =
    updateMirror restartEntry (fun e => decide ((restartEntry e).status ≠ e.status)) s := rfl
@[simp] theorem clearMirror_eq (s : State) : clearMirror s = updateMirror restartedEntry (fun _ => false) s := rfl

/-! ## Serving the store -/

/-- A served query changes at most the host parameters, the queue and word 29 (R139). -/
@[simp] theorem serveStore_frame (w : Bool) (i : Byte) (v : Word) (a : Byte) (s : State) :
    (serveStore w i v a s).pending = s.pending ∧ (serveStore w i v a s).line = s.line ∧
    (serveStore w i v a s).ctl = s.ctl ∧ (serveStore w i v a s).pts = s.pts ∧ (serveStore w i v a s).mir = s.mir ∧
    (serveStore w i v a s).cond = s.cond ∧ (serveStore w i v a s).out = s.out ∧ (serveStore w i v a s).qry = s.qry ∧
    (serveStore w i v a s).port = s.port ∧ (serveStore w i v a s).time = s.time ∧
    (serveStore w i v a s).par.permit = s.par.permit ∧
    (serveStore w i v a s).par.host = (if w = true ∧ i.toNat < 16 ∧ permitted s i = true then s.par.host.set i.toNat v
      else s.par.host) := by
  unfold serveStore; split <;> simp

theorem serveStore_posted (w : Bool) (i : Byte) (v : Word) (a : Byte) (s : State) :
    Posted s.evq (serveStore w i v a s).evq := by
  unfold serveStore; split
  · have h := post_posted .param i (mkWord 0 a) (storeWord i v s) (by decide)
    rwa [storeWord_evq] at h
  · exact .refl _

/-! ## The outstanding query list -/

@[simp] theorem postQuery_frame (q : Query) (o : Outcome) (s : State) :
    (postQuery q o s).pending = s.pending ∧ (postQuery q o s).line = s.line ∧ (postQuery q o s).ctl = s.ctl ∧
    (postQuery q o s).pts = s.pts ∧ (postQuery q o s).mir = s.mir ∧ (postQuery q o s).cond = s.cond ∧
    (postQuery q o s).out = s.out ∧ (postQuery q o s).qry = s.qry ∧ (postQuery q o s).port = s.port ∧
    (postQuery q o s).time = s.time ∧ (postQuery q o s).par.host = s.par.host ∧
    (postQuery q o s).par.permit = s.par.permit := by
  simp [postQuery]

theorem postQuery_posted (q : Query) (o : Outcome) (s : State) : Posted s.evq (postQuery q o s).evq :=
  post_posted _ _ _ _ (by decide)

@[simp] theorem postQueries_frame (p : Query → Bool) (o : Outcome) (l : List Query) (s : State) :
    (postQueries p o l s).pending = s.pending ∧ (postQueries p o l s).line = s.line ∧
    (postQueries p o l s).ctl = s.ctl ∧ (postQueries p o l s).pts = s.pts ∧ (postQueries p o l s).mir = s.mir ∧
    (postQueries p o l s).cond = s.cond ∧ (postQueries p o l s).out = s.out ∧ (postQueries p o l s).qry = s.qry ∧
    (postQueries p o l s).port = s.port ∧ (postQueries p o l s).time = s.time ∧
    (postQueries p o l s).par.host = s.par.host ∧ (postQueries p o l s).par.permit = s.par.permit := by
  induction l generalizing s with
  | nil => simp [postQueries]
  | cons q rest ih => unfold postQueries; rw [ih _ |>.1, (ih _).2.1]; split <;> simp [ih]

theorem postQueries_posted (p : Query → Bool) (o : Outcome) (l : List Query) (s : State) :
    Posted s.evq (postQueries p o l s).evq := by
  induction l generalizing s with
  | nil => exact .refl _
  | cons q rest ih =>
    unfold postQueries
    split
    · exact (postQuery_posted _ _ _).trans (ih _)
    · exact ih _

/-- Ending the queries that satisfy `p` changes the list, the queue and word 29 (R135, R142). -/
@[simp] theorem finishWhere_frame (p : Query → Bool) (o : Outcome) (s : State) :
    (finishWhere p o s).pending = s.pending ∧ (finishWhere p o s).line = s.line ∧ (finishWhere p o s).ctl = s.ctl ∧
    (finishWhere p o s).pts = s.pts ∧ (finishWhere p o s).mir = s.mir ∧ (finishWhere p o s).cond = s.cond ∧
    (finishWhere p o s).out = s.out ∧
    (finishWhere p o s).qry = { s.qry with queries := s.qry.queries.map fun q => if p q then finishQuery o 0 q else q } ∧
    (finishWhere p o s).port = s.port ∧ (finishWhere p o s).time = s.time ∧
    (finishWhere p o s).par.host = s.par.host ∧ (finishWhere p o s).par.permit = s.par.permit := by
  simp [finishWhere]

theorem finishWhere_posted (p : Query → Bool) (o : Outcome) (s : State) : Posted s.evq (finishWhere p o s).evq := by
  have h := postQueries_posted p o s.qry.queries
    (setQueries (s.qry.queries.map fun q => if p q then finishQuery o 0 q else q) s)
  rwa [setQueries_evq] at h

/-- A round close at the query unit changes the list, the queue and word 29 (R135). -/
@[simp] theorem advanceQueries_frame (s : State) :
    (advanceQueries s).pending = s.pending ∧ (advanceQueries s).line = s.line ∧ (advanceQueries s).ctl = s.ctl ∧
    (advanceQueries s).pts = s.pts ∧ (advanceQueries s).mir = s.mir ∧ (advanceQueries s).cond = s.cond ∧
    (advanceQueries s).out = s.out ∧ (advanceQueries s).qry.tagCounter = s.qry.tagCounter ∧
    (advanceQueries s).qry.answers = s.qry.answers ∧
    (advanceQueries s).port = s.port ∧ (advanceQueries s).time = s.time ∧
    (advanceQueries s).par.host = s.par.host ∧ (advanceQueries s).par.permit = s.par.permit := by
  simp [advanceQueries, takeTimeouts]

theorem advanceQueries_posted (s : State) : Posted s.evq (advanceQueries s).evq := by
  have h := finishWhere_posted (timedOut (State.settings (setQueries (s.qry.queries.map fun q =>
    if q.state = .sent then { q with waited := q.waited + 1 } else q) s)).timeout.toNat) .timeout
    (setQueries (s.qry.queries.map fun q => if q.state = .sent then { q with waited := q.waited + 1 } else q) s)
  rw [setQueries_evq] at h
  exact h

/-- The notice of leaving SYNCED at the query unit (R142). -/
@[simp] theorem abortQueries_frame (s : State) :
    (abortQueries s).pending = s.pending ∧ (abortQueries s).line = s.line ∧ (abortQueries s).ctl = s.ctl ∧
    (abortQueries s).pts = s.pts ∧ (abortQueries s).mir = s.mir ∧ (abortQueries s).cond = s.cond ∧
    (abortQueries s).out = s.out ∧
    (abortQueries s).qry = { s.qry with
      queries := s.qry.queries.map fun q => if decide (q.state ≠ .done) then finishQuery .aborted 0 q else q
      answers := [] } ∧
    (abortQueries s).port = s.port ∧ (abortQueries s).time = s.time ∧
    (abortQueries s).par.host = s.par.host ∧ (abortQueries s).par.permit = s.par.permit := by
  simp [abortQueries]

theorem abortQueries_posted (s : State) : Posted s.evq (abortQueries s).evq :=
  finishWhere_posted _ _ s

/-- An answer item changes the list, the queue and the counters (R136). -/
@[simp] theorem takeAnswerItem_frame (a : Byte) (x : AnswerItem) (s : State) :
    (takeAnswerItem a x s).pending = s.pending ∧ (takeAnswerItem a x s).line = s.line ∧
    (takeAnswerItem a x s).ctl = s.ctl ∧ (takeAnswerItem a x s).pts = s.pts ∧ (takeAnswerItem a x s).mir = s.mir ∧
    (takeAnswerItem a x s).cond = s.cond ∧ (takeAnswerItem a x s).out = s.out ∧
    (takeAnswerItem a x s).qry.tagCounter = s.qry.tagCounter ∧ (takeAnswerItem a x s).qry.answers = s.qry.answers ∧
    (takeAnswerItem a x s).port = s.port ∧ (takeAnswerItem a x s).time = s.time ∧
    (takeAnswerItem a x s).par.host = s.par.host ∧ (takeAnswerItem a x s).par.permit = s.par.permit := by
  unfold takeAnswerItem; split <;> simp

theorem takeAnswerItem_posted (a : Byte) (x : AnswerItem) (s : State) : Posted s.evq (takeAnswerItem a x s).evq := by
  unfold takeAnswerItem; split
  · rename_i o q _ _
    have h := postQuery_posted q o
      (setQueries (replaceFirst (answerMatches a x) (finishQuery o x.value) s.qry.queries) s)
    rwa [setQueries_evq] at h
  · exact .refl _

/-- A query item changes the store, the pending answers, the queue and the counters (R139, R140). -/
@[simp] theorem serveQueryItem_frame (a : Byte) (x : QueryItem) (s : State) :
    (serveQueryItem a x s).pending = s.pending ∧ (serveQueryItem a x s).line = s.line ∧
    (serveQueryItem a x s).ctl = s.ctl ∧ (serveQueryItem a x s).pts = s.pts ∧ (serveQueryItem a x s).mir = s.mir ∧
    (serveQueryItem a x s).cond = s.cond ∧ (serveQueryItem a x s).out = s.out ∧
    (serveQueryItem a x s).qry.queries = s.qry.queries ∧ (serveQueryItem a x s).qry.tagCounter = s.qry.tagCounter ∧
    (serveQueryItem a x s).port = s.port ∧ (serveQueryItem a x s).time = s.time ∧
    (serveQueryItem a x s).par.permit = s.par.permit := by
  simp only [serveQueryItem]; split <;> simp

theorem serveQueryItem_posted (a : Byte) (x : QueryItem) (s : State) : Posted s.evq (serveQueryItem a x s).evq := by
  simp only [serveQueryItem]; split
  · exact .refl _
  · exact serveStore_posted _ _ _ _ _

@[simp] theorem markSent_frame (t : BitVec 4) (s : State) :
    (markSent t s).pending = s.pending ∧ (markSent t s).line = s.line ∧ (markSent t s).ctl = s.ctl ∧
    (markSent t s).pts = s.pts ∧ (markSent t s).mir = s.mir ∧ (markSent t s).cond = s.cond ∧
    (markSent t s).out = s.out ∧ (markSent t s).par = s.par ∧ (markSent t s).port = s.port ∧
    (markSent t s).evq = s.evq ∧ (markSent t s).time = s.time ∧ (markSent t s).qry.answers = s.qry.answers ∧
    (markSent t s).qry.tagCounter = s.qry.tagCounter := by
  simp [markSent]

end Sys2Proof.Machine
end

