-- ==== Sys2Proof/Laws/Calm.lean ====
section
/-! SUPPORT. What the line's events and the changes of station state leave untouched, said once: the relation `Calm`, kept by
every shared operation of the line unit and the station controller but the entry to CONFIG and the start by COMMIT. -/

namespace Sys2Proof.Machine

/-- The runtime changes of the mirror table: places, definitions and the soundness of every entry stay (R58, R68). -/
structure MirCalm (m m' : List (Option Entry)) : Prop where
  length : m'.length = m.length
  defs : m'.map (Option.map fun e => (e.source, e.point, e.ageLimit, e.report)) =
    m.map (Option.map fun e => (e.source, e.point, e.ageLimit, e.report))
  sound : (∀ e, some e ∈ m → EntrySound e) → ∀ e, some e ∈ m' → EntrySound e

theorem MirCalm.refl (m : List (Option Entry)) : MirCalm m m := ⟨rfl, rfl, id⟩

theorem MirCalm.trans {a b c : List (Option Entry)} (h : MirCalm a b) (k : MirCalm b c) : MirCalm a c :=
  ⟨k.length.trans h.length, k.defs.trans h.defs, fun x => k.sound (h.sound x)⟩

/-- A query unit with few places, different tags, outcomes exactly at DONE queries, and few answers (R129, R140). -/
def QryOk (q : QueryUnit) : Prop :=
  q.queries.length ≤ 4 ∧ (q.queries.map fun x => x.tag).Nodup ∧ (∀ x ∈ q.queries, x.state = .done ↔ x.outcome ≠ none) ∧
    q.answers.length ≤ 4

/-- Every query is DONE and no answer is pending, as outside SYNCED (R142). -/
def QryRest (q : QueryUnit) : Prop := (∀ x ∈ q.queries, x.state = .done) ∧ q.answers = []

/-- A step that leaves definitions, condition records, rule levels, inputs, host points and the host port alone; it may serve
a query. -/
structure Served (s t : State) : Prop where
  pending : t.pending = s.pending
  port : t.port = s.port
  time : t.time = s.time
  permit : t.par.permit = s.par.permit
  events : Posted s.evq t.evq
  held : t.ctl.held = s.ctl.held
  edited : t.ctl.edited = s.ctl.edited
  editedSet : t.ctl.editedSet = s.ctl.editedSet
  committed : t.ctl.committed = s.ctl.committed
  signature : t.ctl.signature = s.ctl.signature
  condDefs : t.cond.defs = s.cond.defs
  condRaw : t.cond.raw = s.cond.raw
  condSure : t.cond.sure = s.cond.sure
  condConfirmed : t.cond.confirmed = s.cond.confirmed
  condTimers : t.cond.timers = s.cond.timers
  rawInputs : t.pts.raw = s.pts.raw
  filtered : t.pts.filtered = s.pts.filtered
  filterTimers : t.pts.filterTimers = s.pts.filterTimers
  filterTime : t.pts.filterTime = s.pts.filterTime
  invert : t.pts.invert = s.pts.invert
  publish : t.pts.publish = s.pts.publish
  pointsLength : t.pts.points.length = s.pts.points.length
  points : 2 < s.pts.points.length → ∀ p, p ≠ 1 → p ≠ 2 → pointAt t p = pointAt s p
  point2 : 2 < s.pts.points.length → (pointAt t 2).value = (pointAt s 2).value
  outEdited : t.out.edited = s.out.edited
  outActive : t.out.active = s.out.active
  outLevel : t.out.level = s.out.level
  outLatched : t.out.latched = s.out.latched
  outPulse : t.out.pulse = s.out.pulse
  outHost : t.out.hostLevel = s.out.hostLevel
  outCopy : t.out.copy = s.out.copy
  outParked : t.out.parked = s.out.parked
  mir : MirCalm s.mir t.mir
  qry : QryOk s.qry → QryOk t.qry
  config : t.ctl.state = .config ↔ s.ctl.state = .config
  notices : s.ctl.state = .config → t.cond.notices = s.cond.notices

/-- A step that besides keeps a query unit at rest at rest. -/
structure Calm (s t : State) : Prop extends Served s t where
  rest : QryRest s.qry → QryRest t.qry

theorem Served.trans {a b c : State} (h : Served a b) (k : Served b c) : Served a c where
  pending := k.pending.trans h.pending
  port := k.port.trans h.port
  time := k.time.trans h.time
  permit := k.permit.trans h.permit
  held := k.held.trans h.held
  edited := k.edited.trans h.edited
  editedSet := k.editedSet.trans h.editedSet
  committed := k.committed.trans h.committed
  signature := k.signature.trans h.signature
  condDefs := k.condDefs.trans h.condDefs
  condRaw := k.condRaw.trans h.condRaw
  condSure := k.condSure.trans h.condSure
  condConfirmed := k.condConfirmed.trans h.condConfirmed
  condTimers := k.condTimers.trans h.condTimers
  rawInputs := k.rawInputs.trans h.rawInputs
  filtered := k.filtered.trans h.filtered
  filterTimers := k.filterTimers.trans h.filterTimers
  filterTime := k.filterTime.trans h.filterTime
  invert := k.invert.trans h.invert
  publish := k.publish.trans h.publish
  pointsLength := k.pointsLength.trans h.pointsLength
  outEdited := k.outEdited.trans h.outEdited
  outActive := k.outActive.trans h.outActive
  outLevel := k.outLevel.trans h.outLevel
  outLatched := k.outLatched.trans h.outLatched
  outPulse := k.outPulse.trans h.outPulse
  outHost := k.outHost.trans h.outHost
  outCopy := k.outCopy.trans h.outCopy
  outParked := k.outParked.trans h.outParked
  events := h.events.trans k.events
  points := fun hl p h1 h2 => (k.points (by rw [h.pointsLength]; exact hl) p h1 h2).trans (h.points hl p h1 h2)
  point2 := fun hl => (k.point2 (by rw [h.pointsLength]; exact hl)).trans (h.point2 hl)
  mir := h.mir.trans k.mir
  qry := fun x => k.qry (h.qry x)
  config := k.config.trans h.config
  notices := fun x => (k.notices (h.config.2 x)).trans (h.notices x)

namespace Calm

theorem refl (s : State) : Calm s s where
  pending := rfl
  port := rfl
  time := rfl
  permit := rfl
  events := .refl _
  held := rfl
  edited := rfl
  editedSet := rfl
  committed := rfl
  signature := rfl
  condDefs := rfl
  condRaw := rfl
  condSure := rfl
  condConfirmed := rfl
  condTimers := rfl
  rawInputs := rfl
  filtered := rfl
  filterTimers := rfl
  filterTime := rfl
  invert := rfl
  publish := rfl
  pointsLength := rfl
  points := fun _ _ _ _ => rfl
  point2 := fun _ => rfl
  outEdited := rfl
  outActive := rfl
  outLevel := rfl
  outLatched := rfl
  outPulse := rfl
  outHost := rfl
  outCopy := rfl
  outParked := rfl
  mir := .refl _
  qry := id
  rest := id
  config := Iff.rfl
  notices := fun _ => rfl

theorem trans {a b c : State} (h : Calm a b) (k : Calm b c) : Calm a c where
  toServed := h.toServed.trans k.toServed
  rest := fun x => k.rest (h.rest x)

/-- A change of the controller's running fields is calm. -/
theorem setCtl (c : Controller) (s : State) (h1 : c.held = s.ctl.held) (h2 : c.edited = s.ctl.edited)
    (h3 : c.editedSet = s.ctl.editedSet) (h4 : c.committed = s.ctl.committed) (h5 : c.signature = s.ctl.signature)
    (h6 : c.state = .config ↔ s.ctl.state = .config) : Calm s (setCtl c s) :=
  { refl s with held := h1, edited := h2, editedSet := h3, committed := h4, signature := h5, config := h6 }

/-- A change of the line unit is calm. -/
theorem setLine (l : LineUnit) (s : State) : Calm s (setLine l s) := { refl s with }

/-- A change of the counters is calm. -/
theorem setCounters (c : Counters) (s : State) : Calm s (setCounters c s) := { refl s with }

/-- A runtime change of the mirror table is calm. -/
theorem setMir (m : List (Option Entry)) (s : State) (h : MirCalm s.mir m) : Calm s (setMir m s) :=
  { refl s with mir := h }

/-- A change of the query unit that keeps its form is calm. -/
theorem setQry (q : QueryUnit) (s : State) (h : QryOk s.qry → QryOk q) (hr : QryRest s.qry → QryRest q) :
    Calm s (setQry q s) :=
  { refl s with qry := h, rest := hr }

/-- A posting is calm (R188). -/
theorem post (k : EventKind) (a : Byte) (d : Word) (s : State) (hk : k ≠ .lost) : Calm s (post k a d s) := by
  refine ⟨?_, by simp⟩
  constructor <;> simp [MirCalm.refl]
  exact .step _ hk (.refl _)

/-! ## Points, pins and the drive mode -/

/-- A notice is calm (R56). -/
theorem notify (n : Notice) (s : State) : Calm s (notify n s) := by
  refine ⟨?_, by simp⟩
  constructor <;> simp +contextual [MirCalm.refl, Posted.refl]

/-- A change of point 1 is calm, and a change of point 2 that keeps its value (R48, R50). -/
theorem changePoint (i : Nat) (p : Point) (n : Notice) (s : State) (hi : i = 1 ∨ i = 2)
    (hv : i = 2 → p.value = (pointAt s 2).value) : Calm s (changePoint i p n s) := by
  have hpt : 2 < s.pts.points.length → ∀ j, pointAt (Machine.changePoint i p n s) j = if j = i then p else pointAt s j :=
    fun hl j => pointAt_changePoint i j p n s (by omega)
  refine ⟨?_, by simp⟩
  constructor <;> try simp [MirCalm.refl, Posted.refl]
  · intro hl j h1 h2; rw [hpt hl]; rcases hi with rfl | rfl <;> simp [h1, h2]
  · intro hl; rw [hpt hl]; rcases hi with rfl | rfl <;> simp [hv]
  · exact changePoint_notices_config _ _ _ _

/-- Setting the pins is calm (R48, R112). -/
theorem setPins (s : State) : Calm s (setPins s) := by
  simp only [Machine.setPins]
  split
  · exact refl s
  · exact trans ({ refl s with } : Calm s (setOut { s.out with pins := shownPins s.out } s)) (changePoint 1 _ _ _ (.inl rfl) (by simp))

/-- Giving a drive mode is calm (R40, R50, R113). -/
theorem giveDriveMode (m : DriveMode) (s : State) : Calm s (giveDriveMode m s) := by
  simp only [Machine.giveDriveMode]
  refine trans ?_ (changePoint 2 _ _ _ (.inr rfl) (fun _ => rfl))
  refine trans (trans ?_ (setPins (Machine.setCtl { s.ctl with driveMode := m } (setOut { s.out with mode := outModeOf m } s)))) ?_
  · exact { refl s with }
  · exact { refl _ with }

/-- Deriving the drive mode is calm (R40). -/
theorem updateDriveMode (s : State) : Calm s (updateDriveMode s) := by
  simp only [Machine.updateDriveMode]
  split
  · exact refl s
  · exact giveDriveMode _ s

/-- A change of the hold reasons is calm (R40, R43). -/
theorem setHolds (h : HoldReasons) (s : State) : Calm s (setHolds h s) := by
  simp only [Machine.setHolds]
  split
  · exact refl s
  · refine trans (trans ?_ (updateDriveMode (Machine.setCtl { s.ctl with holds := h } s))) (post _ _ _ _ (by decide))
    exact { refl s with }

/-- A STATE event is calm (R42). -/
theorem postState (c : StateCause) (s : State) : Calm s (postState c s) := post _ _ _ _ (by decide)

/-! ## The mirror table -/

/-- A frame application, an age step and a RESTART keep the definition and the soundness of an entry (R63 to R68, R76). -/
theorem applyToEntry_sound (f : SlotFrame) (r : Byte) (e : Entry) (h : EntrySound e) : EntrySound (applyToEntry f r e) := by
  unfold EntrySound at *
  unfold applyToEntry
  split
  · split
    · rename_i p _
      cases hq : p.quality <;> simp [refreshEntry, hq] <;> omega
    · simpa using h
  · exact h

theorem ageEntry_sound (e : Entry) (h : EntrySound e) : EntrySound (ageEntry e) := by
  obtain ⟨h1, h2, h3, h4, h5, h6, h7⟩ := h
  unfold ageEntry
  split
  · exact ⟨h1, h2, h3, h4, h5, h6, h7⟩
  · rename_i hn
    split
    · refine ⟨h1, h2, h3, h4, h5, h6, fun hh => absurd hh hn⟩
    · have key : ∀ a : Nat, a ≤ 15 → EntrySound (staleIfReached { e with age := a }) := by
        intro a ha
        unfold staleIfReached
        split
        · exact ⟨h1, h2, h3, h4, ha, by simp, by simp⟩
        · rename_i hs
          simp only [not_and, not_le] at hs
          exact ⟨h1, h2, h3, h4, ha, hs, fun hh => absurd hh hn⟩
      exact key _ (by split <;> omega)

theorem staleIfReached_sound (e : Entry) (h : EntrySound e) : EntrySound (staleIfReached e) := by
  obtain ⟨h1, h2, h3, h4, h5, h6, h7⟩ := h
  unfold staleIfReached
  split
  · exact ⟨h1, h2, h3, h4, h5, by simp, by simp⟩
  · exact ⟨h1, h2, h3, h4, h5, h6, h7⟩

theorem restartEntry_sound (e : Entry) (h : EntrySound e) : EntrySound (restartEntry e) := by
  obtain ⟨h1, h2, h3, h4, h5, h6, h7⟩ := h
  unfold restartEntry
  simp only
  split
  · exact ⟨h1, h2, h3, h4, h4, by simp, by simp⟩
  · refine ⟨h1, h2, h3, h4, h5, h6, fun hn => ?_⟩
    have := h7 hn
    simp_all

theorem restartedEntry_sound (e : Entry) (h : EntrySound e) : EntrySound (restartedEntry e) := by
  obtain ⟨h1, h2, h3, h4, h5, h6, h7⟩ := h
  exact ⟨h1, h2, h3, h4, by simp [restartedEntry, freshEntry], by simp [restartedEntry, freshEntry],
    by simp [restartedEntry, freshEntry]⟩

/-- An update of the entries that keeps definitions and soundness is a runtime change of the table. -/
theorem mirCalm_map (f : Entry → Entry) (m : List (Option Entry))
    (hd : ∀ e, ((f e).source, (f e).point, (f e).ageLimit, (f e).report) = (e.source, e.point, e.ageLimit, e.report))
    (hs : ∀ e, EntrySound e → EntrySound (f e)) : MirCalm m (m.map (Option.map f)) where
  length := by simp
  defs := by
    rw [List.map_map]
    apply List.map_congr_left
    intro o _
    cases o with
    | none => rfl
    | some e => simp only [Function.comp, Option.map_some, hd e]
  sound := by
    intro h e he
    rw [List.mem_map] at he
    obtain ⟨o, ho, hoe⟩ := he
    cases o with
    | none => cases hoe
    | some x => simp only [Option.map_some, Option.some.injEq] at hoe; subst hoe; exact hs x (h x ho)

/-- An update of the whole table that keeps definitions and soundness is calm (R66, R70, R73). -/
theorem updateMirror (f : Entry → Entry) (p : Entry → Bool) (s : State)
    (hd : ∀ e, ((f e).source, (f e).point, (f e).ageLimit, (f e).report) = (e.source, e.point, e.ageLimit, e.report))
    (hs : ∀ e, EntrySound e → EntrySound (f e)) : Calm s (updateMirror f p s) := by
  have hpost : ∀ (l : List (Option Entry)) (i : Nat) (x : State), Calm x (postEntries f i l x) := by
    intro l
    induction l with
    | nil => intro i x; exact refl x
    | cons o rest ih =>
      intro i x
      cases o with
      | none => exact ih _ _
      | some e =>
        refine trans ?_ (ih _ _)
        unfold postEntry
        split
        · exact post _ _ _ _ (by decide)
        · exact refl x
  have h1 : Calm s (postEntries f 0 s.mir (Machine.setMir (s.mir.map (Option.map f)) s)) :=
    trans (setMir _ s (mirCalm_map f s.mir hd hs)) (hpost _ _ _)
  simp only [Machine.updateMirror]
  split
  · exact h1
  · exact trans h1 (notify _ _)

theorem applyFrame (f : SlotFrame) (s : State) : Calm s (applyFrame f s) :=
  updateMirror _ _ s (fun e => by unfold applyToEntry; (repeat' split) <;> rfl) (applyToEntry_sound f _)

theorem ageStep (s : State) : Calm s (ageStep s) :=
  updateMirror _ _ s (fun e => by unfold ageEntry staleIfReached; (repeat' split) <;> rfl) ageEntry_sound

theorem restartMirror (s : State) : Calm s (restartMirror s) :=
  updateMirror _ _ s (fun e => by unfold restartEntry; split <;> rfl) restartEntry_sound

theorem clearMirror (s : State) : Calm s (clearMirror s) :=
  updateMirror _ _ s (fun _ => rfl) restartedEntry_sound

theorem staleEntryAt (i : Nat) (s : State) : Calm s (staleEntryAt i s) := by
  unfold Machine.staleEntryAt
  split
  · rename_i e he
    simp only
    split
    · exact refl s
    · have hm : MirCalm s.mir (s.mir.set i (some (staleIfReached e))) := by
        have hi : s.mir[i]? = some (some e) := by
          unfold entryAt at he
          cases hh : s.mir[i]? with
          | none => simp [hh] at he
          | some o => simp [hh] at he; rw [he]
        refine ⟨by simp, ?_, ?_⟩
        · rw [List.map_set]
          apply List.ext_getElem?
          intro j
          by_cases hj : i = j
          · subst hj
            simp only [List.getElem?_set, List.length_map, List.getElem?_map, hi]
            have hlt : i < s.mir.length := by
              rw [List.getElem?_eq_some_iff] at hi; exact hi.1
            simp only [hlt, if_true, Option.map_some]
            unfold staleIfReached; split <;> rfl
          · simp [hj]
        · intro h x hx
          rcases List.mem_or_eq_of_mem_set hx with hx | hx
          · exact h x hx
          · injection hx with hx; subst hx
            exact staleIfReached_sound e (h e (List.mem_of_getElem? hi))
      refine trans (trans (setMir _ s hm) ?_) (notify _ _)
      unfold postEntry
      split
      · exact post _ _ _ _ (by decide)
      · exact refl _
  · exact refl s

/-! ## The query unit -/

theorem postQueries (p : Query → Bool) (o : Outcome) (l : List Query) (s : State) : Calm s (postQueries p o l s) := by
  induction l generalizing s with
  | nil => exact refl s
  | cons q rest ih =>
    refine trans ?_ (ih _)
    split
    · exact post _ _ _ _ (by decide)
    · exact refl s

/-- A change of queries in place that keeps tags, and keeps outcomes and DONE together, keeps the query unit's form. -/
theorem qryOk_map (f : Query → Query) (q : QueryUnit) (ht : ∀ x, (f x).tag = x.tag)
    (ho : ∀ x, (x.state = .done ↔ x.outcome ≠ none) → ((f x).state = .done ↔ (f x).outcome ≠ none)) (h : QryOk q) :
    QryOk { q with queries := q.queries.map f } := by
  obtain ⟨h1, h2, h3, h4⟩ := h
  refine ⟨by simpa using h1, ?_, ?_, h4⟩
  · rw [List.map_map]; simpa [Function.comp_def, ht] using h2
  · intro x hx
    rw [List.mem_map] at hx
    obtain ⟨y, hy, rfl⟩ := hx
    exact ho y (h3 y hy)

theorem finishWhere (p : Query → Bool) (o : Outcome) (s : State) : Calm s (finishWhere p o s) := by
  unfold Machine.finishWhere
  refine trans ?_ (postQueries _ _ _ _)
  refine { refl s with qry := ?_, rest := ?_ }
  · exact qryOk_map _ _ (fun x => by split <;> rfl) (fun x hx => by split <;> simp_all [finishQuery])
  · rintro ⟨h1, h2⟩
    refine ⟨fun x hx => ?_, h2⟩
    simp only [setQueries_qry, List.mem_map] at hx
    obtain ⟨y, hy, rfl⟩ := hx
    split
    · rfl
    · exact h1 y hy

theorem advanceQueries (s : State) : Calm s (advanceQueries s) := by
  unfold Machine.advanceQueries takeTimeouts
  refine trans ?_ (finishWhere _ _ _)
  refine { refl s with qry := ?_, rest := ?_ }
  · exact qryOk_map _ _ (fun x => by split <;> rfl) (fun x hx => by split <;> simp_all)
  · rintro ⟨h1, h2⟩
    refine ⟨fun x hx => ?_, h2⟩
    simp only [setQueries_qry, List.mem_map] at hx
    obtain ⟨y, hy, rfl⟩ := hx
    have := h1 y hy
    split <;> simp_all

theorem abortQueries (s : State) : Calm s (abortQueries s) := by
  simp only [Machine.abortQueries]
  refine trans (finishWhere (fun q => decide (q.state ≠ .done)) .aborted s) (setQry _ _ ?_ ?_)
  · rintro ⟨h1, h2, h3, _⟩; exact ⟨h1, h2, h3, by simp⟩
  · rintro ⟨h1, _⟩; exact ⟨h1, rfl⟩

/-- After the notice of leaving SYNCED every query is DONE and no answer is pending (R142). -/
theorem abortQueries_rest (s : State) : QryRest (Machine.abortQueries s).qry := by
  simp only [abortQueries_frame]
  refine ⟨fun x hx => ?_, rfl⟩
  simp only [List.mem_map] at hx
  obtain ⟨y, hy, rfl⟩ := hx
  by_cases h : y.state = .done <;> simp [h, finishQuery]

theorem replaceFirst_spec (p : Query → Bool) (f : Query → Query) (l : List Query) (hf : ∀ x, (f x).tag = x.tag) :
    (replaceFirst p f l).length = l.length ∧ (replaceFirst p f l).map (fun x => x.tag) = l.map (fun x => x.tag) ∧
    (∀ x ∈ replaceFirst p f l, x ∈ l ∨ ∃ y ∈ l, p y = true ∧ x = f y) := by
  induction l with
  | nil => simp [replaceFirst]
  | cons q rest ih =>
    unfold replaceFirst
    split
    · rename_i hp
      refine ⟨by simp, by simp [hf], fun x hx => ?_⟩
      rcases List.mem_cons.1 hx with rfl | hx
      · exact .inr ⟨q, List.mem_cons_self .., hp, rfl⟩
      · exact .inl (List.mem_cons_of_mem _ hx)
    · obtain ⟨i1, i2, i3⟩ := ih
      refine ⟨by simp [i1], by simp [i2], fun x hx => ?_⟩
      rcases List.mem_cons.1 hx with rfl | hx
      · exact .inl (List.mem_cons_self ..)
      · rcases i3 x hx with h | ⟨y, hy, hp, rfl⟩
        · exact .inl (List.mem_cons_of_mem _ h)
        · exact .inr ⟨y, List.mem_cons_of_mem _ hy, hp, rfl⟩

theorem qryOk_replaceFirst (p : Query → Bool) (f : Query → Query) (q : QueryUnit) (hf : ∀ x, (f x).tag = x.tag)
    (ho : ∀ x, p x = true → (x.state = .done ↔ x.outcome ≠ none) → ((f x).state = .done ↔ (f x).outcome ≠ none))
    (h : QryOk q) : QryOk { q with queries := replaceFirst p f q.queries } := by
  obtain ⟨h1, h2, h3, h4⟩ := h
  obtain ⟨i1, i2, i3⟩ := replaceFirst_spec p f q.queries hf
  refine ⟨by simpa [i1] using h1, by simpa [i2] using h2, fun x hx => ?_, h4⟩
  rcases i3 x hx with hx | ⟨y, hy, hp, rfl⟩
  · exact h3 x hx
  · exact ho y hp (h3 y hy)

theorem takeAnswerItem (a : Byte) (x : AnswerItem) (s : State) : Calm s (takeAnswerItem a x s) := by
  unfold Machine.takeAnswerItem
  split
  · rename_i o q _ hq
    refine trans ?_ (post _ _ _ _ (by decide))
    refine { refl s with qry := ?_, rest := ?_ }
    · exact qryOk_replaceFirst _ _ _ (fun _ => rfl) (fun _ _ _ => by simp [finishQuery])
    · rintro ⟨h1, h2⟩
      have := List.find?_some hq
      have hm := List.mem_of_find?_eq_some hq
      simp [answerMatches, h1 q hm] at this
  · exact setCounters _ s

theorem markSent (t : BitVec 4) (s : State) : Calm s (markSent t s) := by
  refine { refl s with qry := ?_, rest := ?_ }
  · refine qryOk_replaceFirst _ _ _ (fun _ => rfl) (fun x hp hx => ?_)
    simp only [Bool.and_eq_true, decide_eq_true_eq] at hp
    simp only [hp.2] at hx
    simp at hx ⊢
    exact hx
  · rintro ⟨h1, h2⟩
    refine ⟨fun x hx => ?_, h2⟩
    obtain ⟨-, -, i3⟩ := replaceFirst_spec
      (fun q => decide (q.tag = t) && decide (q.state = .queued))
      (fun q => { q with state := .sent, sendRound := s.line.round, waited := 0 }) s.qry.queries (fun _ => rfl)
    rcases i3 x hx with hx | ⟨y, hy, hp, rfl⟩
    · exact h1 x hx
    · simp [h1 y hy] at hp

theorem removeAnswer (s : State) : Calm s (removeAnswer s) := by
  refine { refl s with qry := ?_, rest := ?_ }
  · rintro ⟨h1, h2, h3, h4⟩; exact ⟨h1, h2, h3, by simp; omega⟩
  · rintro ⟨h1, h2⟩; exact ⟨h1, by simp [h2]⟩

/-- A query item served: the store's host parameters and the pending answers change (R139, R140). -/
theorem served_serveQueryItem (a : Byte) (x : QueryItem) (s : State) : Served s (serveQueryItem a x s) := by
  simp only [Machine.serveQueryItem]
  split
  · exact (setCounters _ s).toServed
  · rename_i h
    have h1 : Calm s (serveStore x.write x.index x.value a s) := by
      unfold serveStore
      split
      · exact trans ({ refl s with } : Calm s (storeWord x.index x.value s)) (post _ _ _ _ (by decide))
      · exact refl s
    refine h1.toServed.trans { (refl _).toServed with qry := ?_ }
    rintro ⟨k1, k2, k3, k4⟩
    refine ⟨k1, k2, k3, ?_⟩
    simp only [Config.answerPlaces] at h
    simp only [setQry_qry, serveStore_frame, List.length_append, List.length_singleton]
    omega

/-! ## Slots and the round close -/

theorem startSlot (k e : Nat) (p : Option SlotPicture) (s : State) : Calm s (startSlot k e p s) := by
  simp only [Machine.startSlot, gather]
  split
  · exact trans (setLine _ s) (setLine _ _)
  · exact setLine _ s

theorem loneReached (s : State) : Calm s (loneReached s) := by
  unfold Machine.loneReached
  split
  · exact setHolds _ s
  · exact refl s

theorem loneStep (s : State) : Calm s (loneStep s) := by
  have h1 : Calm s (Machine.setCtl (loneClose s.ctl s.settings.loneLimit.toNat) s) := by
    unfold loneClose
    split
    · exact { refl s with }
    · split
      · exact { refl s with }
      · exact { refl s with }
  simp only [Machine.loneStep]
  split
  · exact h1
  · exact trans h1 (loneReached _)

theorem announceClose (s : State) : Calm s (announceClose s) :=
  trans (trans (ageStep s) (advanceQueries _)) (loneStep _)

theorem loadContention (e : Nat) (s : State) : Calm s (loadContention e s) := setLine _ s

theorem endSlot (k e : Nat) (p : Option SlotPicture) (s : State) : Calm s (endSlot k e p s) := by
  unfold Machine.endSlot
  split
  · exact startSlot _ _ _ s
  · exact trans (announceClose s) (loadContention _ _)

theorem endCurrentSlot (e : Nat) (s : State) : Calm s (endCurrentSlot e s) := by
  unfold Machine.endCurrentSlot
  split
  · exact endSlot _ _ _ s
  · exact refl s

/-! ## The changes of station state -/

theorem leaveSynced (s : State) : Calm s (leaveSynced s) := by
  simp only [Machine.leaveSynced]
  exact trans (abortQueries s) (trans (setLine _ _) (setCtl _ _ rfl rfl rfl rfl rfl Iff.rfl))

theorem leaveIfSynced (s : State) : Calm s (leaveIfSynced s) := by
  unfold Machine.leaveIfSynced
  split
  · exact leaveSynced s
  · exact refl s

theorem controlForListen (s : State) (h : s.ctl.state ≠ .config) : Calm s (controlForListen s) :=
  { refl s with config := by simp [Machine.controlForListen, h] }

theorem controlForSynced (s : State) (h : s.ctl.state ≠ .config) : Calm s (controlForSynced s) :=
  { refl s with config := by simp [Machine.controlForSynced, h] }

theorem syncLoss (c : StateCause) (n : Nat) (s : State) (h : s.ctl.state ≠ .config) : Calm s (syncLoss c n s) := by
  simp only [Machine.syncLoss, watchForListen]
  have h0 := setCounters { s.par.counters with syncLosses := satInc s.par.counters.syncLosses } s
  have h1 := trans h0 (leaveSynced _)
  exact trans h1 (trans (controlForListen _ (by rw [Ne, h1.config]; exact h)) (trans (setLine _ _)
    (trans (updateDriveMode _) (postState _ _))))

theorem enterFault (f : FaultCause) (c : StateCause) (s : State) (h : s.ctl.state ≠ .config) :
    Calm s (enterFault f c s) := by
  simp only [Machine.enterFault]
  refine trans ?_ (postState _ _)
  refine trans ?_ (updateDriveMode _)
  have h1 := leaveIfSynced s
  refine trans (trans h1 (setLine _ _)) (setCtl _ _ rfl rfl rfl rfl rfl ?_)
  simp only [setLine_ctl, h1.config]
  simp [h]

theorem duplicateAddress (s : State) : Calm s (duplicateAddress s) := by
  unfold Machine.duplicateAddress
  split
  · rename_i h; exact enterFault _ _ s (by rcases h with h | h <;> simp [h])
  · exact refl s

theorem driverFaulted (s : State) : Calm s (driverFaulted s) := by
  unfold Machine.driverFaulted
  split
  · rename_i h; exact enterFault _ _ s (by rcases h with h | h <;> simp [h])
  · exact refl s

theorem join (r : Byte) (s : State) (h : s.ctl.state ≠ .config) : Calm s (join r s) := by
  simp only [Machine.join]
  exact trans (controlForSynced s h) (trans (setLine _ _) (trans (updateDriveMode _) (trans (postState _ _) (startSlot _ _ _ _))))

theorem coldStarted (s : State) (h : s.ctl.state ≠ .config) : Calm s (coldStarted s) := by
  simp only [Machine.coldStarted, beginOpen]
  exact trans (controlForSynced s h) (trans (updateDriveMode _) (trans (postState _ _) (setLine _ _)))

theorem foreignReached (s : State) (h : s.ctl.state ≠ .config) : Calm s (foreignReached s) := by
  unfold Machine.foreignReached
  split
  · exact enterFault _ _ s h
  · exact refl s

/-- The line unit and the controller at RESTART, before the hold reasons change (R35). -/
theorem restartEntry (s : State) (h : s.ctl.state ≠ .config) :
    Calm s (watchForListen 0 (Machine.controlForListen (Machine.restartMirror (Machine.leaveIfSynced s)))) := by
  refine trans ?_ (setLine _ _)
  have h1 := trans (leaveIfSynced s) (restartMirror _)
  exact trans h1 (controlForListen _ (by rw [Ne, h1.config]; exact h))

/-- RESTART is calm (R35): it touches no definition, no condition record, no rule state and no parameter word. -/
theorem restartNow (s : State) (h : s.ctl.state ≠ .config) : Calm s (restartNow s) := by
  have h1 := restartEntry s h
  simp only [Machine.restartNow]
  generalize watchForListen 0 (Machine.controlForListen (Machine.restartMirror (Machine.leaveIfSynced s))) = a at h1
  have h2 : ∀ h' : HoldReasons,
      Calm s (Machine.postState .restart (Machine.updateDriveMode (Machine.setCtl { a.ctl with holds := h' } a))) := by
    intro h'
    refine trans ?_ (postState _ _)
    refine trans ?_ (updateDriveMode _)
    exact trans h1 (setCtl _ _ rfl rfl rfl rfl rfl Iff.rfl)
  split
  · exact trans (h2 _) (post _ _ _ _ (by decide))
  · exact h2 _

/-! ## Receptions -/

theorem loadColdStart (e : Nat) (s : State) : Calm s (loadColdStart e s) := by
  unfold Machine.loadColdStart
  split
  · exact setLine _ s
  · exact refl s

theorem heardPeer (s : State) : Calm s (heardPeer s) := by
  simp only [Machine.heardPeer]
  refine trans ?_ (setHolds _ _)
  exact setCtl _ _ rfl rfl rfl rfl rfl Iff.rfl

theorem served_deliver (f : SlotFrame) (s : State) : Served s (deliver f s) := by
  have hq : ∀ x : State, Served x (deliverQuery f x) := by
    intro x
    unfold deliverQuery
    split
    · split
      · exact served_serveQueryItem _ _ _
      · exact (refl _).toServed
    · exact (refl _).toServed
  have ha : ∀ x : State, Served x (deliverAnswer f x) := by
    intro x
    unfold deliverAnswer
    split
    · split
      · exact (takeAnswerItem _ _ _).toServed
      · exact (refl _).toServed
    · exact (refl _).toServed
  exact ((trans (applyFrame f s) (heardPeer _)).toServed.trans (hq _)).trans (ha _)

theorem cutRound (r : Byte) (s : State) : Calm s (cutRound r s) := by
  simp only [Machine.cutRound]
  exact trans (announceClose s) (trans (setCounters _ _) (trans (setLine _ _) (startSlot _ _ _ _)))

end Calm

end Sys2Proof.Machine
end

