-- ==== Sys2Proof/Laws/Events.lean ====
section
/-! SUPPORT. The line's events, command by command, leave what `Calm` says, or serve a delivered query while SYNCED. -/

namespace Sys2Proof.Machine

/-- The commands of the line, of the round and of the age-step timer. -/
def lineEvent (c : Instr) : Bool :=
  match c with
  | .receptionEnd _ => true
  | .foreignLimit => true
  | .skipPoint => true
  | .entryStale _ => true
  | .queryTimeout => true
  | .lone => true
  | .transmissionStart => true
  | .transmissionComplete => true
  | .collision => true
  | .collisionLimit => true
  | .driverError => true
  | .driverFault => true
  | .contentionTimeout => true
  | .coldStart => true
  | .ageStepTimer => true
  | .startBit => true
  | .collidedFrameEnd => true
  | _ => false

/-- What a line event leaves: `Calm`, or it served a query while SYNCED and stays SYNCED. -/
def LineLeaves (s t : State) : Prop := Calm s t ∨ (Served s t ∧ s.ctl.state = .synced ∧ t.ctl.state = .synced)

theorem LineLeaves.served {s t : State} (h : LineLeaves s t) : Served s t := by
  rcases h with h | h
  · exact h.toServed
  · exact h.1

theorem LineLeaves.trans_calm {a b c : State} (h : LineLeaves a b) (k : Calm b c) (hs : c.ctl.state = b.ctl.state) :
    LineLeaves a c := by
  rcases h with h | h
  · exact .inl (h.trans k)
  · exact .inr ⟨h.1.trans k.toServed, h.2.1, hs.trans h.2.2⟩

/-! ## The station state through the round's operations -/

@[simp] theorem updateMirror_state (f : Entry → Entry) (p : Entry → Bool) (s : State) :
    (updateMirror f p s).ctl = s.ctl := by simp

@[simp] theorem loneStep_state (s : State) : (loneStep s).ctl.state = s.ctl.state := by
  have hc : (loneClose s.ctl s.settings.loneLimit.toNat).state = s.ctl.state := by
    unfold loneClose; (repeat' split) <;> rfl
  simp only [loneStep, loneReached]
  split
  · simp [hc]
  · split <;> simp [hc]

@[simp] theorem announceClose_state (s : State) : (announceClose s).ctl.state = s.ctl.state := by
  simp [announceClose]

@[simp] theorem startSlot_ctl (k e : Nat) (p : Option SlotPicture) (s : State) : (startSlot k e p s).ctl = s.ctl := by
  simp only [startSlot]; split <;> simp

@[simp] theorem endSlot_state (k e : Nat) (p : Option SlotPicture) (s : State) : (endSlot k e p s).ctl.state = s.ctl.state := by
  unfold endSlot; split <;> simp [closeRound]

@[simp] theorem endCurrentSlot_state (e : Nat) (s : State) : (endCurrentSlot e s).ctl.state = s.ctl.state := by
  unfold endCurrentSlot; split <;> simp

@[simp] theorem deliver_state (f : SlotFrame) (s : State) : (deliver f s).ctl.state = s.ctl.state := by
  have hq : ∀ x : State, (deliverQuery f x).ctl = x.ctl := by
    intro x; unfold deliverQuery; (repeat' split) <;> simp
  have ha : ∀ x : State, (deliverAnswer f x).ctl = x.ctl := by
    intro x; unfold deliverAnswer; (repeat' split) <;> simp
  simp [deliver, ha, hq, heardPeer]

/-! ## Receptions -/

theorem slotCheck_leaves (k : Nat) (f : SlotFrame) (s : State) (h : s.ctl.state = .synced) :
    LineLeaves s (slotCheck k f s) := by
  have hn : s.ctl.state ≠ .config := by simp [h]
  have hm : ∀ x : State, Calm x (countMismatch x) := fun x => Calm.setCounters _ x
  simp only [slotCheck]
  split
  · exact .inl (Calm.duplicateAddress s)
  split
  · exact .inl ((hm s).trans (Calm.endSlot _ _ _ _))
  split
  · exact .inl (Calm.syncLoss _ _ s hn)
  split
  · exact .inl ((hm s).trans (Calm.endSlot _ _ _ _))
  split
  · refine .inr ⟨?_, h, ?_⟩
    · refine Served.trans ?_ (Calm.endSlot _ _ _ _).toServed
      refine Served.trans ?_ (Calm.served_deliver f _)
      exact ((Calm.setLine _ s).trans (Calm.setCounters _ _)).toServed
    · simp [h]
  · refine .inr ⟨(Calm.served_deliver f s).trans (Calm.endSlot _ _ _ _).toServed, h, by simp [h]⟩

theorem slotInSynced_leaves (f : SlotFrame) (s : State) (h : s.ctl.state = .synced) : LineLeaves s (slotInSynced f s) := by
  unfold slotInSynced
  split
  · exact slotCheck_leaves _ _ _ h
  · split
    · exact .inl (Calm.duplicateAddress s)
    · exact .inl ((Calm.setCounters _ s).trans (Calm.loadContention _ _))

theorem openInSynced_calm (f : OpenFrame) (s : State) (h : s.ctl.state = .synced) : Calm s (openInSynced f s) := by
  unfold openInSynced
  split
  · split
    · exact Calm.cutRound _ s
    · exact (Calm.setLine _ s).trans (Calm.startSlot _ _ _ _)
  · exact (Calm.setCounters _ s).trans (Calm.syncLoss _ _ _ (by simp [h]))

theorem invalidInSynced_calm (e : Nat) (p : Option SlotPicture) (s : State) : Calm s (invalidInSynced e p s) := by
  unfold invalidInSynced
  split
  · exact Calm.endSlot _ _ _ s
  · exact Calm.loadContention _ s

theorem frameInListen_calm (f : Frame) (s : State) (h : s.ctl.state = .listen) : Calm s (frameInListen f s) := by
  have hn : s.ctl.state ≠ .config := by simp [h]
  unfold frameInListen
  split
  · split
    · exact Calm.join _ s hn
    · rename_i g _
      have h1 : Calm s (loadColdStart 0 (countForeign (setLine { s.line with foreignCount := s.line.foreignCount + 1 } s))) :=
        ((Calm.setLine _ s).trans (Calm.setCounters _ _)).trans (Calm.loadColdStart _ _)
      exact h1.trans (Calm.foreignReached _ (by rw [Ne, h1.config]; exact hn))
  · split
    · exact Calm.duplicateAddress s
    · exact Calm.loadColdStart _ s

theorem frameInFault_calm (f : Frame) (s : State) : Calm s (frameInFault f s) := by
  unfold frameInFault
  split
  · split
    · exact .refl s
    · exact Calm.setCounters _ s
  · exact .refl s

theorem actOnReception_leaves (f : Option Frame) (e : Nat) (p : Option SlotPicture) (s : State) :
    LineLeaves s (actOnReception f e p s) := by
  unfold actOnReception
  split
  · exact .inl (.refl s)
  · rename_i h
    split
    · exact .inl (frameInListen_calm _ s h)
    · exact .inl (Calm.loadColdStart _ s)
  · rename_i h
    split
    · exact .inl (openInSynced_calm _ s h)
    · exact slotInSynced_leaves _ s h
    · exact .inl (invalidInSynced_calm _ _ s)
  · split
    · exact .inl (frameInFault_calm _ s)
    · exact .inl (.refl s)

theorem collidedEnd_calm (k : FrameKind) (s : State) : Calm s (collidedEnd k s) := by
  unfold collidedEnd
  split
  · split
    · exact Calm.endCurrentSlot _ _
    · exact Calm.loadContention _ _
  · exact Calm.loadColdStart _ _

/-- A line event leaves what `LineLeaves` says. -/
theorem lineEvent_leaves (c : Instr) (s t : State) (hc : lineEvent c = true) (h : exec c s = .next t) : LineLeaves s t := by
  have calm_if : ∀ {p : Prop} [Decidable p] {a : State}, (p → Calm s a) → Calm s (if p then a else s) := by
    intro p _ a h; split
    · exact h ‹_›
    · exact .refl s
  cases c <;> simp only [lineEvent, Bool.false_eq_true] at hc <;> simp only [exec] at h
  case receptionEnd chars =>
    unfold execReceptionEnd at h
    split at h
    · injection h with h; subst h; exact .inl (.refl s)
    · injection h with h; subst h; exact .inl ((Calm.setLine _ s).trans (Calm.loadColdStart _ _))
    · simp only at h
      injection h with h; subst h
      have h1 := Calm.setLine { s.line with rx := .idle, rxFrame := storedChars chars, pictures := [] } s
      split
      · exact .inl h1
      · have h2 : Calm s (countReception (judge chars).isSome (setLine { s.line with rx := .idle, rxFrame := storedChars chars, pictures := [] } s)) :=
          h1.trans (Calm.setCounters _ _)
        rcases actOnReception_leaves (judge chars) (silencePast chars s) (pictureAtEnd chars s) (countReception (judge chars).isSome
          (setLine { s.line with rx := .idle, rxFrame := storedChars chars, pictures := [] } s)) with k | k
        · exact .inl (h2.trans k)
        · exact .inr ⟨h2.toServed.trans k.1, k.2.1, k.2.2⟩
  case foreignLimit =>
    injection h with h; subst h
    exact .inl (calm_if fun h => Calm.foreignReached s (by simp [h]))
  case skipPoint => injection h with h; subst h; exact .inl (calm_if fun _ => Calm.endCurrentSlot _ s)
  case entryStale =>
    injection h with h; subst h
    split
    · exact .inl (.refl s)
    · exact .inl (Calm.staleEntryAt _ s)
  case queryTimeout => injection h with h; subst h; exact .inl (calm_if fun _ => Calm.finishWhere _ _ s)
  case lone => injection h with h; subst h; exact .inl (calm_if fun _ => Calm.loneReached s)
  case transmissionStart => injection h with h; subst h; exact .inl (calm_if fun _ => Calm.setLine _ s)
  case transmissionComplete =>
    injection h with h; subst h
    split
    · have h1 : Calm s (consumeItems s) := by
        simp only [consumeItems]
        (repeat' split) <;>
          first
            | exact (Calm.markSent _ s).trans (Calm.removeAnswer _)
            | exact Calm.markSent _ s
            | exact Calm.removeAnswer s
            | exact .refl s
      exact .inl ((h1.trans (Calm.setLine _ _)).trans (Calm.endCurrentSlot _ _))
    · simp only [openCompleted]
      exact .inl ((((Calm.setLine _ s).trans (Calm.setCounters _ _)).trans (Calm.setLine _ _)).trans (Calm.startSlot _ _ _ _))
    · exact .inl (.refl s)
  case collision =>
    injection h with h; subst h
    split
    · rename_i kind _
      have h1 := (Calm.setLine (collidedLine kind s.line) s).trans
        (Calm.setCounters { s.par.counters with collisions := satInc s.par.counters.collisions } _)
      unfold reportDuplicate
      split
      · exact .inl h1
      · split
        · exact .inl (h1.trans (Calm.setLine _ _))
        · exact .inl (h1.trans (Calm.duplicateAddress _))
    · exact .inl (.refl s)
  case collisionLimit =>
    injection h with h; subst h
    exact .inl (calm_if fun _ => (Calm.setLine _ s).trans (Calm.duplicateAddress _))
  case driverError =>
    injection h with h; subst h
    have hr : ∀ x : State, Calm x (reportDriver x) := by
      intro x
      unfold reportDriver
      split
      · exact .refl x
      · split
        · exact Calm.setLine _ x
        · exact Calm.driverFaulted x
    split
    · exact .inl ((Calm.setLine _ s).trans (hr _))
    · exact .inl (((Calm.setLine _ s).trans (Calm.loadContention _ _)).trans (hr _))
    · exact .inl (.refl s)
  case driverFault =>
    injection h with h; subst h
    exact .inl (calm_if fun _ => (Calm.setLine _ s).trans (Calm.driverFaulted _))
  case contentionTimeout => injection h with h; subst h; exact .inl (calm_if fun _ => Calm.setLine _ s)
  case coldStart =>
    injection h with h; subst h
    exact .inl (calm_if fun h => Calm.coldStarted s (by simp [h.1]))
  case ageStepTimer =>
    injection h with h; subst h
    refine .inl (calm_if fun _ => Calm.trans ?_ (Calm.ageStep _))
    exact Calm.setCtl _ s rfl rfl rfl rfl rfl Iff.rfl
  case startBit =>
    injection h with h; subst h
    (repeat' split) <;> first | exact .inl (.refl s) | exact .inl (Calm.setLine _ s)
  case collidedFrameEnd =>
    injection h with h; subst h
    split
    · exact .inl ((Calm.setLine _ s).trans (collidedEnd_calm _ _))
    · exact .inl (.refl s)

end Sys2Proof.Machine
end

