-- ==== Sys2Proof/Laws/Steps.lean ====
section
/-! SUPPORT. How a property is kept by every step: the cases it has to be shown for, packaged once. -/

namespace Sys2Proof.Machine

variable {P : State → Prop}

/-! ## Messages -/

/-- A property that the port's fields do not touch and every body keeps is kept by an execution (R148). -/
theorem execute_keeps (hport : ∀ x s, P s → P (setPort x s)) (m : List Byte) (body : State → Result)
    (hb : ∀ s, P s → P (body s).2) (s : State) (h : P s) : P (execute m body s) := by
  have h1 := hb _ (hport { s.port with phase := .executing, buf := m, len := some (m.length - 2) } s h)
  unfold execute beginExecution
  split
  · rename_i r s1 heq; rw [heq] at h1; exact hport _ _ h1
  · rename_i s1 heq; rw [heq] at h1; exact h1

theorem dataWrite_keeps (hport : ∀ x s, P s → P (setPort x s)) (hb : ∀ i s, P s → P (bodyOf i s).2) (b : Byte) (s : State)
    (h : P s) : P (dataWrite b s) := by
  unfold dataWrite
  split
  · exact h
  · split
    · exact hport _ _ h
    · split
      · unfold writeLength
        split
        · exact hport _ _ h
        · simp only
          split
          · exact execute_keeps hport _ _ (hb _) s h
          · exact hport _ _ h
      · simp only [writeOperand]
        split
        · exact execute_keeps hport _ _ (hb _) s h
        · exact hport _ _ h
    · exact hport _ _ h
    · exact hport _ _ h

theorem dataWrites_keeps (hport : ∀ x s, P s → P (setPort x s)) (hb : ∀ i s, P s → P (bodyOf i s).2) (l : List Byte)
    (s : State) (h : P s) : P (dataWrites l s) := by
  induction l generalizing s with
  | nil => exact h
  | cons b rest ih => exact ih _ (dataWrite_keeps hport hb b s h)

theorem command_keeps (hport : ∀ x s, P s → P (setPort x s)) (hb : ∀ i s, P s → P (bodyOf i s).2) (code : Byte)
    (ops : List Byte) (body : List Byte → State → Result) (hbody : ∀ s, P s → P (body ops s).2) (s : State) (h : P s) :
    P (command code ops body s) := by
  simp only [command]
  split
  · exact execute_keeps hport _ _ hbody s h
  · exact dataWrites_keeps hport hb _ s h

/-- What a message's own row does is one `command` over the body of its constructor. -/
theorem exec_message (c : Instr) (code : Byte) (ops : List Byte) (s : State) (hm : messageOf c = some (code, ops)) :
    ∃ body : List Byte → State → Result, exec c s = .next (command code ops body s) ∧
      (body ops = bodyOf c ∨ body ops = bodyOf (decodeMessage code ops)) := by
  cases c <;> simp only [messageOf, Option.some.injEq, Prod.mk.injEq, reduceCtorEq] at hm <;> obtain ⟨rfl, rfl⟩ := hm <;>
    first
      | exact ⟨_, rfl, .inl rfl⟩
      | exact ⟨_, rfl, .inr rfl⟩

/-! ## Every step -/

/-- The cases that show a property kept by every step. -/
structure Keeps (P : State → Prop) : Prop where
  pending : ∀ x s, P s → P (setPending x s)
  port : ∀ x s, P s → P (setPort x s)
  reset : ∀ inputs, P (State.resetWith inputs)
  body : ∀ i s, P s → P (bodyOf i s).2
  release : ∀ c s, P s → s.ctl.held = some c → txSending s = false → P (makeHeld c (setCtl { s.ctl with held := none } s))
  line : ∀ c s t, lineEvent c = true → exec c s = .next t → P s → P t
  input : ∀ i b s t, exec (.inputChange i b) s = .next t → P s → P t
  filter : ∀ m s t, exec (.filterExpiry m) s = .next t → P s → P t
  pass : ∀ s, P s → P (takeNotice s)
  confirm : ∀ k s, k < 16 → P s → P (expireConfirm k s)
  pulse : ∀ i s, i < 16 → P s → P (expirePulse i s)
  tick : ∀ s, P s → P (tick s)

theorem Keeps.exec (k : Keeps P) (c : Instr) (s t : State) (h : exec c s = .next t) (hs : P s) : P t := by
  cases hm : messageOf c with
  | some x =>
    obtain ⟨code, ops⟩ := x
    obtain ⟨body, h1, h2⟩ := exec_message c code ops s hm
    rw [h1] at h; injection h with h; subst h
    refine command_keeps k.port k.body code ops body ?_ s hs
    rcases h2 with h2 | h2 <;> rw [h2] <;> exact k.body _
  | none =>
    by_cases hl : lineEvent c = true
    · exact k.line c s t hl h hs
    · cases c <;> simp only [messageOf, reduceCtorEq] at hm <;> simp only [lineEvent, not_true] at hl
      case hardwareReset inputs => injection h with h; subst h; exact k.pending _ _ (k.reset inputs)
      case hostDataWrite b => injection h with h; subst h; exact dataWrite_keeps k.port k.body b s hs
      case dataRead =>
        injection h with h; subst h
        unfold dataRead
        split
        · simp only; split <;> exact k.port _ _ hs
        · exact k.port _ _ hs
        · exact k.port _ _ hs
        · exact k.port _ _ hs
      case portReset =>
        injection h with h; subst h
        unfold portReset
        split <;> exact k.port _ _ hs
      case heldCommandRelease =>
        simp only [Machine.exec, execHeldCommandRelease] at h
        split at h
        · rename_i c hc
          injection h with h; subst h
          split
          · exact hs
          · rename_i htx
            exact k.port _ _ (k.release c s hs hc (by simpa using htx))
        · injection h with h; subst h; exact hs
      case inputChange i b => exact k.input i b s t h hs
      case filterExpiry m => exact k.filter m s t h hs
      case conditionPass => injection h with h; subst h; exact k.pass s hs
      case confirmExpiry i => injection h with h; subst h; exact k.confirm i.val s i.isLt hs
      case pulseExpiry i => injection h with h; subst h; exact k.pulse i.val s i.isLt hs

theorem Keeps.step (k : Keeps P) (s t : State) (h : step s = .next t) (hs : P s) : P t := by
  unfold Machine.step at h
  split at h
  · exact k.exec _ _ t h (k.pending _ s hs)
  · split at h
    · exact k.exec _ _ t h hs
    · injection h with h; subst h; exact k.tick s hs

end Sys2Proof.Machine
end

