-- ==== Sys2Proof/Laws/Bodies.lean ====
section
/-! SUPPORT. Everything a command's body can do to the state, said once: each body leaves one of the effects listed here. -/

namespace Sys2Proof.Machine

/-- The effects of the command bodies on the state (09, 10 and the commands of 02 to 07). -/
inductive BodyEffect (s : State) : State → Prop where
  | same : BodyEffect s s
  | station (c : Settings) : s.ctl.state = .config → settingsInRange c = true →
      BodyEffect s (setCtl { s.ctl with edited := c, editedSet := true } s)
  | clearPlace (i : Nat) : s.ctl.state = .config → BodyEffect s (setPlace i none s)
  | setPlace (i : Nat) (source point age : Byte) (r : Bool) : s.ctl.state = .config → source.toNat ≤ 31 → point.toNat ≤ 7 →
      1 ≤ age.toNat → age.toNat ≤ 15 → BodyEffect s (setPlace i (some (freshEntry source point age r)) s)
  | setDef (k : Nat) (d : Option Condition) : s.ctl.state = .config → (∀ c, d = some c → c.terms.length ≤ 4) →
      BodyEffect s (setDef k d s)
  | setRule (i : Nat) (r : Option OutRule) : s.ctl.state = .config → BodyEffect s (setRule i r s)
  | permit (w : Word) : s.ctl.state = .config → BodyEffect s (setPar { s.par with permit := w } s)
  | commit : s.ctl.state = .config → validate s = none → BodyEffect s (commitNow s)
  | store (i : Byte) (v : Word) : i.toNat ≤ 15 → BodyEffect s (storeWord i v s)
  | counters : BodyEffect s (setCounters Counters.zero s)
  | take (r : EventRec) (rest : List EventRec) : s.evq = r :: rest → BodyEffect s (setEvq rest s)
  | held (c : HeldCommand) : s.ctl.state ≠ .config → txSending s = true →
      BodyEffect s (setCtl { s.ctl with held := some c } s)
  | made (c : HeldCommand) : s.ctl.state ≠ .config → txSending s = false → BodyEffect s (makeHeld c s)
  | holds (b : Bool) : s.ctl.state ≠ .config → BodyEffect s (setHolds { s.ctl.holds with host := b } s)
  | point (i : Nat) (p : Point) : s.ctl.state ≠ .config → 3 ≤ i → i ≤ 7 → BodyEffect s (changePoint i p (.point i) s)
  | entryRead (i : Nat) (e : Entry) : s.ctl.state ≠ .config → entryAt s.mir i = some e →
      BodyEffect s (setMir (s.mir.set i (some { e with changed := false })) s)
  | outputs (m l : Word) : s.ctl.state ≠ .config → m &&& ~~~(hostLines s.out.active) = 0 →
      BodyEffect s (writeHostLevels m l s)
  | unlatch (m : Word) : s.ctl.state ≠ .config → m &&& ~~~(wordOf (isKindLine s.out.active .latch)) = 0 →
      BodyEffect s (clearLatched (m &&& s.out.latched &&& ~~~(sourceTrue s.out)) s)
  | queued (target index : Byte) (write : Bool) (v : Word) : s.ctl.state = .synced → s.qry.queries.length < 4 →
      BodyEffect s (issueQuery ⟨.queued, target, write, index, v,
        freshTag s.qry.queries Config.queryPlaces s.qry.tagCounter, 0, 0, none, 0⟩ s)
  | served (q : Query) (o : Outcome) (w : Bool) (i : Byte) (v r : Word) (a : Byte) : s.ctl.state = .synced →
      s.qry.queries.length < 4 → q.tag = freshTag s.qry.queries Config.queryPlaces s.qry.tagCounter →
      BodyEffect s (postQuery q o (issueQuery (finishQuery o r q) (serveStore w i v a s)))
  | answered (t : BitVec 4) : s.ctl.state ≠ .config →
      BodyEffect s (setQueries (s.qry.queries.eraseP fun x => decide (x.tag = t)) s)

theorem inConfig_cases (s : State) (r : Result) :
    (s.ctl.state = .config ∧ inConfig s r = r) ∨ inConfig s r = refuse .wrongState s := by
  unfold inConfig; split
  · exact .inl ⟨‹_›, rfl⟩
  · exact .inr rfl

theorem whenRunning_cases (s : State) (r : Result) :
    (s.ctl.state ≠ .config ∧ whenRunning s r = r) ∨ whenRunning s r = refuse .wrongState s := by
  unfold whenRunning; split
  · exact .inr rfl
  · exact .inl ⟨‹_›, rfl⟩

/-- SET-CONDITION stores at most four terms (R162, R178). -/
theorem readTerms_length (l : List Byte) (ts : List Term) (h : readTerms l = some ts) : l.length = 5 * ts.length := by
  induction ts generalizing l with
  | nil =>
    match l, h with
    | [], _ => rfl
    | [_], h => simp [readTerms] at h
    | [_, _], h => simp [readTerms] at h
    | [_, _, _], h => simp [readTerms] at h
    | [_, _, _, _], h => simp [readTerms] at h
    | _ :: _ :: _ :: _ :: _ :: _, h => simp only [readTerms] at h; split at h <;> simp at h
  | cons t ts ih =>
    match l, h with
    | [], h => simp [readTerms] at h
    | [_], h => simp [readTerms] at h
    | [_, _], h => simp [readTerms] at h
    | [_, _, _], h => simp [readTerms] at h
    | [_, _, _, _], h => simp [readTerms] at h
    | _ :: _ :: _ :: _ :: _ :: rest, h =>
      simp only [readTerms] at h
      split at h
      · rename_i _ _ _ hr
        simp only [Option.some.injEq, List.cons.injEq] at h
        obtain ⟨_, rfl⟩ := h
        have := ih rest hr
        simp only [List.length_cons, this]; omega
      · cases h

theorem BodyEffect.inConfig (s : State) (r : Result) (h : s.ctl.state = .config → BodyEffect s r.2) :
    BodyEffect s (inConfig s r).2 := by
  rcases inConfig_cases s r with ⟨hc, hr⟩ | hr
  · rw [hr]; exact h hc
  · rw [hr]; exact .same

theorem BodyEffect.whenRunning (s : State) (r : Result) (h : s.ctl.state ≠ .config → BodyEffect s r.2) :
    BodyEffect s (whenRunning s r).2 := by
  rcases whenRunning_cases s r with ⟨hc, hr⟩ | hr
  · rw [hr]; exact h hc
  · rw [hr]; exact .same

theorem holdOrMake_effect (c : HeldCommand) (s : State) (h : s.ctl.state ≠ .config) :
    BodyEffect s (holdOrMake c s).2 := by
  unfold holdOrMake
  split
  · exact .held c h ‹_›
  · exact .made c h (by simpa using ‹¬txSending s = true›)

theorem cmdSetStation_effect (ops : List Byte) (s : State) : BodyEffect s (cmdSetStation ops s).2 := by
  unfold cmdSetStation; split
  · refine BodyEffect.inConfig _ _ fun h => ?_
    split
    · exact .station _ h ‹_›
    · exact .same
  · exact .same

theorem cmdSetEntry_effect (ops : List Byte) (s : State) : BodyEffect s (cmdSetEntry ops s).2 := by
  unfold cmdSetEntry; split
  · refine BodyEffect.inConfig _ _ fun h => ?_
    split
    · rename_i hr
      obtain ⟨-, h1, h2, h3, h4⟩ := hr
      split
      · rename_i r _
        exact BodyEffect.setPlace _ _ _ _ r h h1 h2 h3 h4
      · exact .same
    · exact .same
  · exact .same

theorem cmdClearEntry_effect (ops : List Byte) (s : State) : BodyEffect s (cmdClearEntry ops s).2 := by
  unfold cmdClearEntry; split
  · refine BodyEffect.inConfig _ _ fun h => ?_
    split
    · exact .clearPlace _ h
    · exact .same
  · exact .same

theorem cmdSetCondition_effect (ops : List Byte) (s : State) : BodyEffect s (cmdSetCondition ops s).2 := by
  unfold cmdSetCondition; split
  · rename_i place mode policy held report t1 t0 terms
    split
    · rename_i hlen
      refine BodyEffect.inConfig _ _ fun h => ?_
      split
      · split
        · rename_i d hd
          refine .setDef _ _ h fun c hc => ?_
          injection hc with hc; subst hc
          simp only [conditionLength, List.length_cons, decide_eq_true_eq] at hlen
          unfold readCondition at hd
          split at hd
          · rename_i ts _ _ _ _ hts
            injection hd with hd; subst hd
            have := readTerms_length _ _ hts
            simp only; omega
          · cases hd
        · exact .same
      · exact .same
    · exact .same
  · exact .same

theorem cmdClearCondition_effect (ops : List Byte) (s : State) : BodyEffect s (cmdClearCondition ops s).2 := by
  unfold cmdClearCondition; split
  · refine BodyEffect.inConfig _ _ fun h => ?_
    split
    · exact .setDef _ _ h (by simp)
    · exact .same
  · exact .same

theorem cmdSetOutput_effect (ops : List Byte) (s : State) : BodyEffect s (cmdSetOutput ops s).2 := by
  unfold cmdSetOutput; split
  · refine BodyEffect.inConfig _ _ fun h => ?_
    split
    · split
      · exact .setRule _ _ h
      · exact .same
    · exact .same
  · exact .same

theorem cmdClearOutput_effect (ops : List Byte) (s : State) : BodyEffect s (cmdClearOutput ops s).2 := by
  unfold cmdClearOutput; split
  · refine BodyEffect.inConfig _ _ fun h => ?_
    split
    · exact .setRule _ _ h
    · exact .same
  · exact .same

theorem cmdSetPermit_effect (ops : List Byte) (s : State) : BodyEffect s (cmdSetPermit ops s).2 := by
  unfold cmdSetPermit; split
  · exact BodyEffect.inConfig _ _ fun h => .permit _ h
  · exact .same

theorem cmdCommit_effect (ops : List Byte) (s : State) : BodyEffect s (cmdCommit ops s).2 := by
  unfold cmdCommit; split
  · refine BodyEffect.inConfig _ _ fun h => ?_
    split
    · exact .same
    · rename_i hv
      simp only [okWith]
      exact BodyEffect.commit h hv
  · exact .same

theorem cmdReadConfig_effect (ops : List Byte) (s : State) : BodyEffect s (cmdReadConfig ops s).2 := by
  unfold cmdReadConfig; simp only; (repeat' split) <;> exact .same

theorem cmdGetStatus_effect (ops : List Byte) (s : State) : BodyEffect s (cmdGetStatus ops s).2 := by
  unfold cmdGetStatus; split <;> exact .same

theorem cmdReadParameter_effect (ops : List Byte) (s : State) : BodyEffect s (cmdReadParameter ops s).2 := by
  unfold cmdReadParameter; (repeat' split) <;> exact .same

theorem cmdWriteParameter_effect (ops : List Byte) (s : State) : BodyEffect s (cmdWriteParameter ops s).2 := by
  unfold cmdWriteParameter; split
  · split
    · exact .store _ _ ‹_›
    · exact .same
  · exact .same

theorem cmdClearCounters_effect (ops : List Byte) (s : State) : BodyEffect s (cmdClearCounters ops s).2 := by
  unfold cmdClearCounters; split
  · exact .counters
  · exact .same

theorem cmdTakeEvent_effect (ops : List Byte) (s : State) : BodyEffect s (cmdTakeEvent ops s).2 := by
  unfold cmdTakeEvent; split
  · split
    · exact .same
    · exact .take _ _ ‹_›
  · exact .same

theorem cmdReconfigure_effect (ops : List Byte) (s : State) : BodyEffect s (cmdReconfigure ops s).2 := by
  unfold cmdReconfigure; split
  · exact BodyEffect.whenRunning _ _ (holdOrMake_effect _ s)
  · exact .same

theorem cmdRestart_effect (ops : List Byte) (s : State) : BodyEffect s (cmdRestart ops s).2 := by
  unfold cmdRestart; split
  · exact BodyEffect.whenRunning _ _ (holdOrMake_effect _ s)
  · exact .same

theorem cmdHold_effect (ops : List Byte) (s : State) : BodyEffect s (cmdHold ops s).2 := by
  unfold cmdHold; split
  · exact BodyEffect.whenRunning _ _ fun h => .holds true h
  · exact .same

theorem cmdResume_effect (ops : List Byte) (s : State) : BodyEffect s (cmdResume ops s).2 := by
  unfold cmdResume; split
  · exact BodyEffect.whenRunning _ _ fun h => .holds false h
  · exact .same

theorem cmdWritePoint_effect (ops : List Byte) (s : State) : BodyEffect s (cmdWritePoint ops s).2 := by
  unfold cmdWritePoint; split
  · refine BodyEffect.whenRunning _ _ fun h => ?_
    split
    · rename_i hp
      split
      · exact .point _ _ h hp.1 hp.2
      · exact .same
    · exact .same
  · exact .same

theorem cmdReadPoints_effect (ops : List Byte) (s : State) : BodyEffect s (cmdReadPoints ops s).2 := by
  unfold cmdReadPoints; split
  · exact BodyEffect.whenRunning _ _ fun _ => .same
  · exact .same

theorem cmdReadEntry_effect (ops : List Byte) (s : State) : BodyEffect s (cmdReadEntry ops s).2 := by
  unfold cmdReadEntry; split
  · refine BodyEffect.whenRunning _ _ fun h => ?_
    split
    · split
      · exact .entryRead _ _ h ‹_›
      · exact .same
    · exact .same
  · exact .same

theorem cmdReadConditions_effect (ops : List Byte) (s : State) : BodyEffect s (cmdReadConditions ops s).2 := by
  unfold cmdReadConditions; split
  · exact BodyEffect.whenRunning _ _ fun _ => .same
  · exact .same

theorem cmdReadOutputs_effect (ops : List Byte) (s : State) : BodyEffect s (cmdReadOutputs ops s).2 := by
  unfold cmdReadOutputs; split
  · exact BodyEffect.whenRunning _ _ fun _ => .same
  · exact .same

theorem cmdSetOutputs_effect (ops : List Byte) (s : State) : BodyEffect s (cmdSetOutputs ops s).2 := by
  unfold cmdSetOutputs; split
  · refine BodyEffect.whenRunning _ _ fun h => ?_
    split
    · exact .outputs _ _ h ‹_›
    · exact .same
  · exact .same

theorem cmdUnlatch_effect (ops : List Byte) (s : State) : BodyEffect s (cmdUnlatch ops s).2 := by
  unfold cmdUnlatch; split
  · refine BodyEffect.whenRunning _ _ fun h => ?_
    split
    · exact .unlatch _ h ‹_›
    · exact .same
  · exact .same

theorem cmdQuery_effect (ops : List Byte) (s : State) : BodyEffect s (cmdQuery ops s).2 := by
  unfold cmdQuery; split
  · refine BodyEffect.whenRunning _ _ fun h => ?_
    split
    · exact .same
    · rename_i hs
      split
      · split
        · split
          · rename_i hlt
            simp only [acceptQuery]
            split
            · exact .served _ _ _ _ _ _ _ (by simpa using hs) hlt rfl
            · exact .queued _ _ _ _ (by simpa using hs) hlt
          · exact .same
        · exact .same
      · exact .same
  · exact .same

theorem cmdTakeAnswer_effect (ops : List Byte) (s : State) : BodyEffect s (cmdTakeAnswer ops s).2 := by
  unfold cmdTakeAnswer; split
  · refine BodyEffect.whenRunning _ _ fun h => ?_
    split
    · split
      · split
        · exact .answered _ h
        · exact .same
      · exact .same
    · exact .same
  · exact .same

/-- Every body leaves one of the listed effects. -/
theorem body_effect (i : Instr) (s : State) : BodyEffect s (bodyOf i s).2 := by
  cases i <;> simp only [bodyOf] <;> try exact .same
  case setStation ops => exact cmdSetStation_effect ops s
  case setEntry ops => exact cmdSetEntry_effect ops s
  case clearEntry ops => exact cmdClearEntry_effect ops s
  case setCondition ops => exact cmdSetCondition_effect ops s
  case clearCondition ops => exact cmdClearCondition_effect ops s
  case setOutput ops => exact cmdSetOutput_effect ops s
  case clearOutput ops => exact cmdClearOutput_effect ops s
  case setPermit ops => exact cmdSetPermit_effect ops s
  case commit ops => exact cmdCommit_effect ops s
  case readConfig ops => exact cmdReadConfig_effect ops s
  case getStatus ops => exact cmdGetStatus_effect ops s
  case readParameter ops => exact cmdReadParameter_effect ops s
  case writeParameter ops => exact cmdWriteParameter_effect ops s
  case clearCounters ops => exact cmdClearCounters_effect ops s
  case takeEvent ops => exact cmdTakeEvent_effect ops s
  case reconfigure ops => exact cmdReconfigure_effect ops s
  case restart ops => exact cmdRestart_effect ops s
  case hold ops => exact cmdHold_effect ops s
  case resume ops => exact cmdResume_effect ops s
  case writePoint ops => exact cmdWritePoint_effect ops s
  case readPoints ops => exact cmdReadPoints_effect ops s
  case readEntry ops => exact cmdReadEntry_effect ops s
  case readConditions ops => exact cmdReadConditions_effect ops s
  case readOutputs ops => exact cmdReadOutputs_effect ops s
  case setOutputs ops => exact cmdSetOutputs_effect ops s
  case unlatch ops => exact cmdUnlatch_effect ops s
  case query ops => exact cmdQuery_effect ops s
  case takeAnswer ops => exact cmdTakeAnswer_effect ops s

end Sys2Proof.Machine
end

