-- ==== Sys2Proof/Laws/Messages.lean ====
section
/-! SUPPORT. What a whole message does at a port that takes it: its body runs once, and a reply without a change of the port is
the placed reply over the body's state. -/

namespace Sys2Proof.Machine

/-- A command sent as a whole message to a free port runs its body (R147; log 12). -/
theorem exec_body (c : Instr) (code : Byte) (ops : List Byte) (s : State) (hm : messageOf c = some (code, ops))
    (hf : operandsFit ops = true) (hp : PortFree s) :
    exec c s = .next (execute (code :: BitVec.ofNat 8 ops.length :: ops) (bodyOf (decodeMessage code ops)) s) := by
  have ready : portReady s = true := by simp [portReady, hp.1, hp.2.1]
  have run : ∀ body : List Byte → State → Result,
      command code ops body s = execute (code :: BitVec.ofNat 8 ops.length :: ops) (body ops) s := by
    intro body; simp [command, ready, hf]
  cases c <;> simp only [messageOf, Option.some.injEq, Prod.mk.injEq, reduceCtorEq] at hm <;> obtain ⟨rfl, rfl⟩ := hm <;>
    exact congrArg Host.Outcome.next (run _)

/-- A body that leaves the port as the execution found it has its reply placed over its own state (R148). -/
theorem execute_reply (m : List Byte) (body : State → Result) (s t : State) (st : Status) (data : List Byte) (hp : PortFree s)
    (hb : body (beginExecution m s) = (some ⟨st, data⟩, t)) (ht : t.port = (beginExecution m s).port) :
    execute m body s = withReply st data { t with port := s.port } := by
  rw [execute, hb]
  simp [endExecution, endPort, ht, beginExecution, setPort, hp.2.2, withReply, replyBytes]

/-- A body that refuses has the refusal placed and changes nothing else (R153). -/
theorem execute_refuse (m : List Byte) (body : State → Result) (s : State) (st : Status) (hp : PortFree s)
    (hb : body (beginExecution m s) = refuse st (beginExecution m s)) : execute m body s = withReply st [] s :=
  execute_reply m body s (beginExecution m s) st [] hp hb rfl

end Sys2Proof.Machine
end

