-- ==== Sys2Proof/Laws/PerInstr.lean ====
section
/-! SUPPORT. The family `MessageDecoding`, stated of each command as syntax: a well-formed message is read back as its own command. -/

namespace Sys2Proof.Laws

/-- A well-formed command that the host sends as a message fits the length byte, and the code byte and operands of the message
name that command again (Fig. 20, R146, R147). -/
def MessageDecoding.Statement (i : Instr) : Prop :=
  i.wellFormed = true → ∀ code ops, messageOf i = some (code, ops) →
    decodeMessage code ops = i ∧ ops.length ≤ Config.longestMessage

/-- The statement for a command with a code of Fig. 20. -/
theorem MessageDecoding.of_code {i : Instr} {c : Byte} {ops : List Byte} (hm : messageOf i = some (c, ops))
    (hw : i.wellFormed = true → operandsFit ops = true) (hd : decodeMessage c ops = i) : MessageDecoding.Statement i := by
  intro w code l h
  rw [hm] at h
  obtain ⟨rfl, rfl⟩ : c = code ∧ ops = l := by simpa using h
  exact ⟨hd, by simpa [operandsFit] using hw w⟩

/-- The statement for a command that is no message. -/
theorem MessageDecoding.of_none {i : Instr} (hm : messageOf i = none) : MessageDecoding.Statement i :=
  fun _ _ _ h => by simp [hm] at h

/-- A code that names no command is read as BAD_COMMAND. -/
theorem MessageDecoding.unknown {code : Byte} {ops : List Byte} (h : commandCodes.contains code = false) :
    decodeMessage code ops = .badCommand code ops := by
  simp only [commandCodes, List.contains_eq_mem, List.mem_cons, List.not_mem_nil, or_false, decide_eq_false_iff_not, not_or] at h
  simp only [decodeMessage, h, if_false]

theorem MessageDecoding.badCommand (code : Byte) (ops : List Byte) : Statement (.badCommand code ops) := by
  intro w c l h
  obtain ⟨rfl, rfl⟩ : code = c ∧ ops = l := by simpa [messageOf] using h
  simp only [Instr.wellFormed, Bool.and_eq_true, Bool.not_eq_true'] at w
  exact ⟨unknown w.1, by simpa [operandsFit] using w.2⟩

theorem MessageDecoding.hardwareReset (w : Word) : Statement (.hardwareReset w) := of_none rfl

theorem MessageDecoding.hostDataWrite (b : Byte) : Statement (.hostDataWrite b) := of_none rfl

theorem MessageDecoding.dataRead : Statement (.dataRead) := of_none rfl

theorem MessageDecoding.portReset (b : Byte) : Statement (.portReset b) := of_none rfl

theorem MessageDecoding.setStation (ops : List Byte) : Statement (.setStation ops) := of_code rfl id rfl

theorem MessageDecoding.setEntry (ops : List Byte) : Statement (.setEntry ops) := of_code rfl id rfl

theorem MessageDecoding.clearEntry (ops : List Byte) : Statement (.clearEntry ops) := of_code rfl id rfl

theorem MessageDecoding.setCondition (ops : List Byte) : Statement (.setCondition ops) := of_code rfl id rfl

theorem MessageDecoding.clearCondition (ops : List Byte) : Statement (.clearCondition ops) := of_code rfl id rfl

theorem MessageDecoding.setOutput (ops : List Byte) : Statement (.setOutput ops) := of_code rfl id rfl

theorem MessageDecoding.clearOutput (ops : List Byte) : Statement (.clearOutput ops) := of_code rfl id rfl

theorem MessageDecoding.setPermit (ops : List Byte) : Statement (.setPermit ops) := of_code rfl id rfl

theorem MessageDecoding.commit (ops : List Byte) : Statement (.commit ops) := of_code rfl id rfl

theorem MessageDecoding.readConfig (ops : List Byte) : Statement (.readConfig ops) := of_code rfl id rfl

theorem MessageDecoding.getStatus (ops : List Byte) : Statement (.getStatus ops) := of_code rfl id rfl

theorem MessageDecoding.readParameter (ops : List Byte) : Statement (.readParameter ops) := of_code rfl id rfl

theorem MessageDecoding.writeParameter (ops : List Byte) : Statement (.writeParameter ops) := of_code rfl id rfl

theorem MessageDecoding.clearCounters (ops : List Byte) : Statement (.clearCounters ops) := of_code rfl id rfl

theorem MessageDecoding.takeEvent (ops : List Byte) : Statement (.takeEvent ops) := of_code rfl id rfl

theorem MessageDecoding.reconfigure (ops : List Byte) : Statement (.reconfigure ops) := of_code rfl id rfl

theorem MessageDecoding.restart (ops : List Byte) : Statement (.restart ops) := of_code rfl id rfl

theorem MessageDecoding.hold (ops : List Byte) : Statement (.hold ops) := of_code rfl id rfl

theorem MessageDecoding.resume (ops : List Byte) : Statement (.resume ops) := of_code rfl id rfl

theorem MessageDecoding.writePoint (ops : List Byte) : Statement (.writePoint ops) := of_code rfl id rfl

theorem MessageDecoding.readPoints (ops : List Byte) : Statement (.readPoints ops) := of_code rfl id rfl

theorem MessageDecoding.readEntry (ops : List Byte) : Statement (.readEntry ops) := of_code rfl id rfl

theorem MessageDecoding.readConditions (ops : List Byte) : Statement (.readConditions ops) := of_code rfl id rfl

theorem MessageDecoding.readOutputs (ops : List Byte) : Statement (.readOutputs ops) := of_code rfl id rfl

theorem MessageDecoding.setOutputs (ops : List Byte) : Statement (.setOutputs ops) := of_code rfl id rfl

theorem MessageDecoding.unlatch (ops : List Byte) : Statement (.unlatch ops) := of_code rfl id rfl

theorem MessageDecoding.query (ops : List Byte) : Statement (.query ops) := of_code rfl id rfl

theorem MessageDecoding.takeAnswer (ops : List Byte) : Statement (.takeAnswer ops) := of_code rfl id rfl

theorem MessageDecoding.heldCommandRelease : Statement (.heldCommandRelease) := of_none rfl

theorem MessageDecoding.receptionEnd (chars : List RxChar) : Statement (.receptionEnd chars) := of_none rfl

theorem MessageDecoding.foreignLimit : Statement (.foreignLimit) := of_none rfl

theorem MessageDecoding.skipPoint : Statement (.skipPoint) := of_none rfl

theorem MessageDecoding.entryStale (place : Fin 64) : Statement (.entryStale place) := of_none rfl

theorem MessageDecoding.queryTimeout : Statement (.queryTimeout) := of_none rfl

theorem MessageDecoding.lone : Statement (.lone) := of_none rfl

theorem MessageDecoding.transmissionStart : Statement (.transmissionStart) := of_none rfl

theorem MessageDecoding.transmissionComplete : Statement (.transmissionComplete) := of_none rfl

theorem MessageDecoding.collision : Statement (.collision) := of_none rfl

theorem MessageDecoding.collisionLimit : Statement (.collisionLimit) := of_none rfl

theorem MessageDecoding.driverError : Statement (.driverError) := of_none rfl

theorem MessageDecoding.driverFault : Statement (.driverFault) := of_none rfl

theorem MessageDecoding.contentionTimeout : Statement (.contentionTimeout) := of_none rfl

theorem MessageDecoding.coldStart : Statement (.coldStart) := of_none rfl

theorem MessageDecoding.ageStepTimer : Statement (.ageStepTimer) := of_none rfl

theorem MessageDecoding.inputChange (line : Fin 16) (level : Bool) : Statement (.inputChange line level) := of_none rfl

theorem MessageDecoding.filterExpiry (lines : Word) : Statement (.filterExpiry lines) := of_none rfl

theorem MessageDecoding.conditionPass : Statement (.conditionPass) := of_none rfl

theorem MessageDecoding.confirmExpiry (condition : Fin 16) : Statement (.confirmExpiry condition) := of_none rfl

theorem MessageDecoding.pulseExpiry (line : Fin 16) : Statement (.pulseExpiry line) := of_none rfl

theorem MessageDecoding.startBit : Statement (.startBit) := of_none rfl

theorem MessageDecoding.collidedFrameEnd : Statement (.collidedFrameEnd) := of_none rfl

end Sys2Proof.Laws
end

