-- ==== Sys2Proof/Laws/Records.lean ====
section
/-! SUPPORT. How the records of a step compose: postings in order, one after the other; and the small lemmas of the words that the
statements use for notices and for LTX. -/

namespace Sys2Proof.Machine

/-! ## Records (R188, R189) -/

/-- No posting: the queue and the parameter store stand. -/
theorem recorded_nil (s t : State) : Recorded [] s t ↔ t.evq = s.evq ∧ t.par = s.par := Iff.rfl

/-- One posting, with the round number held (R185). -/
theorem recorded_post (k : EventKind) (a : Byte) (d : Word) (s : State) :
    Recorded [⟨k, a, d, s.line.round⟩] s (post k a d s) := by
  refine ⟨(post_frame k a d s).2.2.2.2.2.2.2.2.2.2.2.2, ?_⟩
  rw [post_eq]; rfl

/-- Word 29 after postings one after the other. -/
theorem lostAfter_append (a b : List EventRec) (q : List EventRec) (w : Word) :
    lostAfter q w (a ++ b) = lostAfter (a.foldl enqueue q) (lostAfter q w a) b := by
  induction a generalizing q w with
  | nil => rfl
  | cons r a ih => exact ih _ _

/-- Postings of two steps in a row. -/
theorem Recorded.append {a b : List EventRec} {s m t : State} (h : Recorded a s m) (k : Recorded b m t) :
    Recorded (a ++ b) s t := by
  refine ⟨by rw [k.1, h.1, List.foldl_append], ?_⟩
  rw [k.2, h.2, h.1, lostAfter_append]

/-- A step between that touches neither the queue nor the parameter store. -/
theorem Recorded.congr {a : List EventRec} {s t s' t' : State} (h : Recorded a s t) (hs : s'.evq = s.evq ∧ s'.par = s.par)
    (ht : t'.evq = t.evq ∧ t'.par = t.par) : Recorded a s' t' := by
  unfold Recorded at *; rw [ht.1, ht.2, hs.1, hs.2]; exact h

/-! ## Notices (R88) -/

/-- The model's test of a notice against a term is the rule's. -/
theorem concernsTerm_iff (n : Notice) (x : Term) : concernsTerm n x = true ↔ Concerns n x := by
  have two : ∀ q : Fin 8, q.val = 2 ↔ q = 2 := fun q => ⟨fun h => Fin.ext h, fun h => h ▸ rfl⟩
  rcases x with ⟨ref, mask, pattern⟩
  cases n <;> cases ref <;> simp [concernsTerm, Concerns, two]
  exact fun _ => eq_comm

/-! ## LTX (R2) -/

@[simp] theorem charLevels_length (b : Byte) : (charLevels b).length = 10 := by simp [charLevels]

/-- Without an own frame the line rests at "H" (R2, R201). -/
theorem ltx_rest (s : State) (n : Nat) (h : txSending s = false) : ltx s n = true := by simp [ltx, h]

end Sys2Proof.Machine
end

