-- ==== Sys2Proof/Laws/Words.lean ====
section
/-! SUPPORT. The small laws of words and bytes: bits put and read, words built from bits, words as two bytes. -/

namespace Sys2Proof

@[simp] theorem bitOf_putBit (w : Word) (i j : Nat) (b : Bool) (hi : i < 16) :
    bitOf (putBit w i b) j = if j = i then b else bitOf w j := by
  have h2 : (bitAt i).getLsbD j = (decide (j < 16) && decide (j = i)) := by
    simp only [bitAt, BitVec.getLsbD_ofNat, Nat.testBit_two_pow]
    by_cases h : j = i
    · subst h; simp
    · simp [h, Ne.symm h]
  by_cases hj : j < 16
  · cases b
    · simp only [bitOf, putBit, Bool.false_eq_true, if_false, BitVec.getLsbD_and, BitVec.getLsbD_not, h2, hj, decide_true,
        Bool.true_and]
      by_cases h : j = i <;> simp [h]
    · simp only [bitOf, putBit, if_true, BitVec.getLsbD_or, h2, hj, decide_true, Bool.true_and]
      by_cases h : j = i <;> simp [h]
  · have h : j ≠ i := by omega
    have hge : 16 ≤ j := by omega
    rw [bitOf, BitVec.getLsbD_of_ge _ j hge, if_neg h, bitOf, BitVec.getLsbD_of_ge _ j hge]

/-- Two words with the same sixteen bits are equal. -/
theorem word_ext {a b : Word} (h : ∀ i < 16, bitOf a i = bitOf b i) : a = b := by
  apply BitVec.eq_of_getLsbD_eq
  intro i hi
  exact h i hi

theorem bitOf_of_ge (w : Word) (i : Nat) (h : 16 ≤ i) : bitOf w i = false := BitVec.getLsbD_of_ge w i h

@[simp] theorem bitOf_zero (i : Nat) : bitOf 0#16 i = false := by simp [bitOf]

@[simp] theorem bitOf_and (a b : Word) (i : Nat) : bitOf (a &&& b) i = (bitOf a i && bitOf b i) := by simp [bitOf]

@[simp] theorem bitOf_or (a b : Word) (i : Nat) : bitOf (a ||| b) i = (bitOf a i || bitOf b i) := by simp [bitOf]

@[simp] theorem bitOf_xor (a b : Word) (i : Nat) : bitOf (a ^^^ b) i = (bitOf a i ^^ bitOf b i) := by simp [bitOf]

theorem bitOf_not (a : Word) (i : Nat) (h : i < 16) : bitOf (~~~a) i = !bitOf a i := by simp [bitOf, h]

@[simp] theorem hiByte_mkWord (h l : Byte) : hiByte (mkWord h l) = h := by
  simp only [hiByte, mkWord]
  apply BitVec.eq_of_getLsbD_eq
  intro i hi
  simp only [BitVec.getLsbD_extractLsb', hi, decide_true, Bool.true_and, BitVec.getLsbD_append]
  simp

@[simp] theorem loByte_mkWord (h l : Byte) : loByte (mkWord h l) = l := by
  simp only [loByte, mkWord]
  apply BitVec.eq_of_getLsbD_eq
  intro i hi
  simp only [BitVec.getLsbD_extractLsb', hi, decide_true, Bool.true_and, BitVec.getLsbD_append]
  simp [hi]

@[simp] theorem mkWord_bytes (w : Word) : mkWord (hiByte w) (loByte w) = w := by
  apply BitVec.eq_of_getLsbD_eq
  intro i hi
  simp only [mkWord, hiByte, loByte, BitVec.getLsbD_append, BitVec.getLsbD_extractLsb']
  by_cases h : i < 8
  · simp [h]
  · have h2 : i - 8 < 8 := by omega
    have h3 : 8 + (i - 8) = i := by omega
    simp [h, h2, h3]

namespace Machine

/-- The bits of a word built from a function are the function's values. -/
@[simp] theorem bitOf_wordOf (f : Nat → Bool) (i : Nat) (h : i < 16) : bitOf (wordOf f) i = f i := by
  have key : ∀ (l : List Nat) (w : Word), (∀ x ∈ l, x < 16) →
      bitOf (l.foldl (fun w i => putBit w i (f i)) w) i = if i ∈ l then f i else bitOf w i := by
    intro l
    induction l with
    | nil => intro w _; simp
    | cons a rest ih =>
      intro w hl
      simp only [List.foldl_cons]
      rw [ih _ (fun x hx => hl x (List.mem_cons_of_mem _ hx)), bitOf_putBit _ _ _ _ (hl a (List.mem_cons_self ..))]
      by_cases h1 : i ∈ rest
      · simp [h1]
      · by_cases h2 : i = a
        · subst h2; simp
        · simp [h1, h2]
  unfold wordOf
  rw [key _ _ (by simp)]
  simp [h]

end Machine

end Sys2Proof
end

