-- ==== Sys2Proof/Tests/Slice0.lean ====
section
/-! SUPPORT. Our own tests: ill-formed commands refused, worked examples of the spec on one command each, and for every statement
with hypotheses a state and operands that meet them. -/

namespace Sys2Proof.Tests

open Sys2Proof Sys2Proof.Machine

-- One theorem at a time: the kernel evaluations below need not wait for each other in threads of their own.
set_option Elab.async false

/-! ## Helpers -/

/-- The state a command leaves. -/
def after (c : Instr) (s : State) : State :=
  match exec c s with
  | .next t => t
  | _ => s

/-- Good characters of a frame. -/
def charsOf (l : List Byte) : List RxChar := l.map fun b => ⟨b, false⟩

/-- The settings of the worked example of 9.9: address 2, S 6, rate 2, key 1234h, n 4, F 5, invert 0008h, L 3, Q 3. -/
def press : Settings := ⟨2, 6, 2, 0x1234, 4, 5, 0x0008, 3, 3⟩

/-- A committed station in a state, with no table defined and its blocks in agreement with the state. -/
def station (st : StationState) (ph : LinePhase) : State :=
  let m := deriveMode st HoldReasons.empty
  let r := State.reset
  { r with
    ctl := { r.ctl with
      state := st, committed := some press, edited := press, editedSet := true, signature := 0xDEFF, driveMode := m
      faultCause := if st = .fault then .driver else .none }
    line := { r.line with phase := ph }
    out := { r.out with mode := outModeOf m }
    pts := { r.pts with
      driveMode := m, filterTime := 5, invert := 0x0008, publish := some 4
      points := [⟨0x0008, .good⟩, ⟨0, .good⟩, ⟨0, qualityOf m⟩] ++ List.replicate 5 ⟨0, .held⟩ } }

/-- A station in LISTEN. -/
def listening : State := station .listen .watch

/-- A SYNCED station in slot 1 of its round 91. -/
def inSlots : State :=
  let s := station .synced .slots
  { s with line := { s.line with slot := some 1, slotTimer := some 8, round := 91 } }

/-- A SYNCED station in the opening contention. -/
def inContention : State :=
  let s := station .synced .contention
  { s with line := { s.line with contention := some 20, round := 91 } }

/-- A station in FAULT. -/
def faulted : State := station .fault .watch

/-- A mirror entry of station 0's point 0 with age limit 2. -/
def guardEntry (status : EntryStatus) (age : Nat) : Entry := ⟨0, 0, 2, true, 0x000C, status, age, false, false, false, 90⟩

/-- A query to station 3. -/
def sentQuery : Query := ⟨.sent, 3, false, 16, 0, 8, 90, 2, none, 0⟩

/-- The SLOT frame of a peer with one point. -/
def peerFrame (sender round : Byte) : SlotFrame := ⟨sender, round, ⟨false, false⟩, [⟨0x000C, .good⟩], none, none⟩

/-- The station with a reception in progress. -/
def receiving (s : State) : State := { s with line := { s.line with rx := .receiving } }

/-- The station with its transmitter in a state. -/
def withTx (tx : TxState) (s : State) : State := { s with line := { s.line with tx := tx } }

/-! ## Ill-formed commands -/

theorem test_wellFormed_long_operands : Instr.wellFormed (.getStatus (List.replicate 31 0)) = false := by decide +kernel
theorem test_wellFormed_longest_operands : Instr.wellFormed (.badCommand 0x99 (List.replicate 30 0)) = true := by decide +kernel
theorem test_wellFormed_known_code : Instr.wellFormed (.badCommand 0x18 []) = false := by decide +kernel
theorem test_wellFormed_empty_reception : Instr.wellFormed (.receptionEnd []) = false := by decide +kernel
theorem test_wellFormed_past_declared_end :
    Instr.wellFormed (.receptionEnd (charsOf [0x7E, 0x40, 0x01, 0, 0, 0, 0])) = false := by decide +kernel
theorem test_wellFormed_no_expiring_line : Instr.wellFormed (.filterExpiry 0) = false := by decide +kernel
theorem test_no_table_word : decodeTableWord 16 0x1234 = none := rfl

/-! ## Worked examples of the spec -/

/-- 11.1: the OPEN frame of station 0, round 42, signature DEFFh, S 6. -/
theorem test_open_frame_bytes :
    buildOpen ⟨0, 42, 0xDEFF, 6⟩ = [0x7E, 0x40, 0x04, 0x2A, 0xDE, 0xFF, 0x06, 0xAF, 0x4F] := by decide +kernel

/-- 11.1: the first 17 bytes of the SLOT frame of station 2, round 91, one answer to requester 5. -/
theorem test_slot_frame_bytes :
    (buildSlot ⟨2, 91, ⟨false, false⟩, [⟨0x000C, .good⟩, ⟨0x0001, .good⟩, ⟨0x0050, .good⟩], none,
      some ⟨5, 7, 90, some .ok, 0x0025⟩⟩).take 17 =
      [0x7E, 0x82, 0x0E, 0x5B, 0x12, 0x00, 0x00, 0x0C, 0x00, 0x01, 0x00, 0x50, 0x05, 0x07, 0x5A, 0x00, 0x25] := by decide +kernel

/-- 11.1: the same OPEN frame as heard; with a bad stop bit it is no valid frame. -/
theorem test_open_frame_judged :
    judge (charsOf [0x7E, 0x40, 0x04, 0x2A, 0xDE, 0xFF, 0x06, 0xAF, 0x4F]) = some (.opening ⟨0, 42, 0xDEFF, 6⟩) ∧
    judge ((charsOf [0x7E, 0x40, 0x04, 0x2A, 0xDE, 0xFF, 0x06, 0xAF]) ++ [⟨0x4F, true⟩]) = none := by decide +kernel

/-- 9.5, 9.9: the signature of S 6, rate 2, key 1234h. -/
theorem test_signature : signatureOf press = 0xDEFF := by decide +kernel

/-- 9.9 step a: COMMIT after hardware reset is INVALID-CONFIG, NO-STATION, item 0. -/
theorem test_commit_no_station : (after (.commit []) State.reset).port.reply = [10, 2, 1, 0] := by decide +kernel

/-- 9.9 step b: SET-STATION is OK and leaves the committed copy. -/
theorem test_set_station :
    (after (.setStation [2, 6, 2, 0x12, 0x34, 4, 5, 0, 8, 3, 3]) State.reset).ctl.edited = press ∧
    (after (.setStation [2, 6, 2, 0x12, 0x34, 4, 5, 0, 8, 3, 3]) State.reset).ctl.committed = none := by decide +kernel

/-- 11.3: the status byte after hardware reset, and words 16 and 17 of a SYNCED station, address 2, S 6, round 91. -/
theorem test_status_byte : statusByte State.reset = 0x01 ∧ paramWord inSlots 16 = 0x0202 ∧ paramWord inSlots 17 = 0x5B06 := by
  decide

/-- 8.9: word 18 at 0C41h read with READ-PARAMETER. -/
theorem test_read_parameter :
    (after (.readParameter [18]) { inSlots with par := { inSlots.par with
      counters := { inSlots.par.counters with validFrames := 0x0C41 } } }).port.reply = [0, 2, 0x0C, 0x41] := by decide +kernel

/-- 10.9 steps 3 and 7: a drop into a full queue begins a LOST record, a later one advances it. -/
theorem test_overflow :
    (enqueue (List.replicate 31 ⟨.hold, 0, 0, 0⟩) ⟨.entry, 2, 0, 120⟩).getLast? = some ⟨.lost, 1, 0x0303, 120⟩ ∧
    (enqueue (List.replicate 31 ⟨.hold, 0, 0, 0⟩ ++ [⟨.lost, 4, 0x0304, 120⟩]) ⟨.query, 6, 0, 120⟩).getLast? =
      some ⟨.lost, 5, 0x0306, 120⟩ := by decide +kernel

/-- 3.8: a bounce cancels the filter timer, and the expiry shows in point 0 as 0004h. -/
theorem test_filter_bounce :
    timerAt (after (.inputChange 3 true) { inSlots with time := ⟨40⟩ }).pts.filterTimers 3 = .running true 6 ∧
    timerAt (after (.inputChange 3 false) (after (.inputChange 3 true) inSlots)).pts.filterTimers 3 = .idle ∧
    (pointAt (after (.filterExpiry 0x0008) (after (.inputChange 3 true) { inSlots with pts := { inSlots.pts with
      filtered := 0x0004, raw := 0x0004 } })) 0).value = 0x0004 := by decide +kernel

/-- 5.8: condition 4's terms over place 0 at 0004h fail under ALL, over 000Ch they match. -/
theorem test_condition_all :
    let d : Condition := ⟨.all, .false, true, true, 50, 0, [⟨.entry 0, 0x000C, 0x000C⟩]⟩
    let s := fun v => { inSlots with mir := inSlots.mir.set 0 (some { guardEntry .live 0 with value := v }) }
    evaluated (s 0x0004) d = false ∧ evaluated (s 0x000C) d = true ∧ allKnown (s 0x0004) d = true := by decide +kernel

/-- 5.9: a STALE entry makes the condition unknown, and the policy FALSE takes the raw result. -/
theorem test_condition_stale :
    let d : Condition := ⟨.all, .false, true, true, 50, 0, [⟨.entry 0, 0x000C, 0x000C⟩]⟩
    let s := { inSlots with mir := inSlots.mir.set 0 (some (guardEntry .stale 2)) }
    allKnown s d = false ∧ rawResult s 4 d = false := by decide +kernel

/-- 6.6: UNLATCH of a latched line whose source is FALSE answers the cleared mask 0080h and drops the line. -/
theorem test_unlatch :
    let s := { inSlots with out := { inSlots.out with
      active := inSlots.out.active.set 7 (some ⟨.cond 9, .latch, true, 0⟩), latched := 0x0080, level := 0x0080, pins := 0x0080 } }
    (after (.unlatch [0x00, 0x80]) s).port.reply = [0, 4, 0x00, 0x80, 0, 0] ∧
      (after (.unlatch [0x00, 0x80]) s).out.pins = 0 := by decide +kernel

/-- 7.7: an accepted QUERY takes tag 7 from the counter, which moves to 8. -/
theorem test_query_tag :
    let s := { inSlots with qry := { inSlots.qry with tagCounter := 7 } }
    (after (.query [5, 1, 6, 0x00, 0x25]) s).port.reply = [0, 1, 7] ∧
      (after (.query [5, 1, 6, 0x00, 0x25]) s).qry.tagCounter = 8 := by decide +kernel

/-- 4.8: an entry one round below its age limit becomes STALE at the next close unless it is fresh. -/
theorem test_age_entry :
    (ageEntry (guardEntry .live 1)).status = .stale ∧
      (ageEntry { guardEntry .live 1 with fresh := true }).status = .live := by decide +kernel

/-- 2.9 and 9.9: a matching OPEN joins the round, and the slot-0 timer is loaded with 4 CT. -/
theorem test_join :
    let t := after (.receptionEnd (charsOf [0x7E, 0x40, 0x04, 0x2A, 0xDE, 0xFF, 0x06, 0xAF, 0x4F])) (receiving listening)
    t.ctl.state = .synced ∧ t.line.round = 42 ∧ t.line.slot = some 0 ∧ t.line.slotTimer = some (4 * t.ct) := by decide +kernel

/-- 1.4: address 2 waits 10 CT in the contention and 34 CT for a cold start. -/
theorem test_waits : inSlots.contentionWait = 10 * inSlots.ct ∧ inSlots.coldStartWait = 34 * inSlots.ct := by decide +kernel

/-- 8.10: RECONFIGURE during an own frame is held and made when the frame has ended. -/
theorem test_held_reconfigure :
    let s := after (.reconfigure []) (withTx (.sending .slotFrame) { inSlots with line := { inSlots.line with slot := some 2 } })
    s.port.phase = .executing ∧ s.ctl.state = .synced ∧
      (after .heldCommandRelease (withTx .idle s)).ctl.state = .config := by decide +kernel

/-- 2.10: the third collision in a row is a duplicate address. -/
theorem test_third_collision :
    let s := withTx (.sending .slotFrame) { inSlots with line := { inSlots.line with collisionRun := 2 } }
    (after .collision s).ctl.faultCause = .duplicate ∧ (after .collision s).par.counters.collisions = 1 := by decide +kernel

/-- 2.11: a lone station with L 3 sets LONE at the third close. -/
theorem test_lone :
    let s := { inSlots with line := { inSlots.line with slot := some 5 }, ctl := { inSlots.ctl with loneCounter := 2 } }
    (after .skipPoint s).ctl.holds = ⟨false, true⟩ ∧ (after .skipPoint s).line.phase = .contention := by decide +kernel

/-- R2, 11.5: LTX is "H" at hardware reset; the sync character 7Eh goes out as start bit, 0111 1110 from the least significant bit, stop bit. -/
theorem test_ltx :
    ltx State.reset 0 = true ∧
    (List.range 11).map (ltx (after .transmissionStart (withTx .gap { inSlots with line := { inSlots.line with
      txFrame := [0x7E, 0x41] } }))) = [false, false, true, true, true, true, true, true, false, true, false] := by decide +kernel

/-! ## Witnesses: states and operands that meet the hypotheses of the statements -/

theorem portFree_reset : PortFree State.reset := by unfold PortFree; decide +kernel
theorem portFree_listening : PortFree listening := by unfold PortFree; decide +kernel
theorem portFree_inSlots : PortFree inSlots := by unfold PortFree; decide +kernel
theorem pinsSound_listening : PinsSound listening := by unfold PinsSound; decide +kernel
theorem pinsSound_inSlots : PinsSound inSlots := by unfold PinsSound; decide +kernel
theorem pinsSound_inContention : PinsSound inContention := by unfold PinsSound; decide +kernel
theorem querySound_inSlots : QuerySound inSlots := by unfold QuerySound; decide +kernel

/-- Nothing due in CONFIG after reset, in the contention in the last phase of a tick, and with a reception in progress; a waiting
report, and a timer at 0, are due. -/
theorem witness_EmptyQueueIsOwnTime :
    State.reset.pending = [] ∧ firstDueEvent State.reset = none ∧
    firstDueEvent { inContention with time := ⟨99⟩ } = none ∧ ¬(99 + 1 < 100) ∧ inContention.line.rx = .idle ∧
    firstDueEvent (receiving inContention) = none ∧ (receiving inContention).line.rx ≠ .idle ∧
    firstDueEvent (after .startBit inSlots) = none ∧ (after .startBit inSlots).line.pictures ≠ [] ∧
    firstDueEvent { inSlots with line := { inSlots.line with dupReport := true } } = some .collisionLimit ∧
    firstDueEvent { inSlots with line := { inSlots.line with slotTimer := some 0 } } = some .skipPoint ∧
    firstDueEvent { inSlots with pts := { inSlots.pts with
      filterTimers := (inSlots.pts.filterTimers.set 15 (.running true 0)).set 2 (.running false 0) } } =
        some (.filterExpiry 0x8004) ∧
    firstDueEvent { inSlots with out := { inSlots.out with pulse := inSlots.out.pulse.set 15 (.running false 0) } } =
      some (.pulseExpiry 15) := by decide +kernel

/-- A filter, a confirm and a pulse timer of 1 ms started in the last phase of a tick. -/
theorem witness_TimersExpireInTime :
    let s0 := { inSlots with time := ⟨99⟩ }
    let t := startTimer true 1 s0
    let s := { s0 with
      pts := { s0.pts with filterTimers := s0.pts.filterTimers.set 15 t }
      cond := { s0.cond with timers := s0.cond.timers.set 15 t }
      out := { s0.out with pulse := s0.out.pulse.set 15 t } }
    s.time.phase < 100 ∧ timerAt s.pts.filterTimers 15 = startTimer true 1 s ∧
    timerAt s.cond.timers 15 = startTimer true 1 s ∧ timerAt s.out.pulse 15 = startTimer true 1 s ∧ 99 < 100 * 1 ∧ 100 * (1 + 1) ≤ 199 + 1 := by
  decide +kernel

/-- The port in each phase, with length bytes 0, 1, 30 and 31, and with one and with no operand byte missing. -/
theorem witness_DataWriteByPhase :
    (PortPhase.ready = State.reset.port.phase ∧ State.reset.port.perr = false) ∧
    (after (.hostDataWrite 0x21) State.reset).port = { State.reset.port with phase := .filling, buf := [0x21] } ∧
    30 < (31 : Byte).toNat ∧ 1 ≤ (1 : Byte).toNat ∧ (30 : Byte).toNat ≤ 30 ∧
    (after (.hostDataWrite 2) (after (.hostDataWrite 0x20) State.reset)).port.buf.length + 1 ≠ 2 + 2 ∧
    (after (.hostDataWrite 1) (after (.hostDataWrite 0x22) State.reset)).port.buf = 0x22 :: 1 :: [] ∧
    (after (.getStatus []) State.reset).port.phase = .replying ∧
    (after (.restart []) (withTx (.sending .openFrame) inContention)).port.phase = .executing ∧
    (after .dataRead State.reset).port.perr = true := by decide +kernel

/-- The shortest message and one of 30 operands, at the port after reset. -/
theorem witness_MessageRunsItsCommand :
    (messageOf (.getStatus []) = some (0x21, []) ∧ operandsFit [] = true) ∧
    (messageOf (.badCommand 0x99 (List.replicate 30 1)) = some (0x99, List.replicate 30 1) ∧
      operandsFit (List.replicate 30 1) = true) ∧
    State.reset.port.phase = .ready ∧ State.reset.port.perr = false := by decide +kernel

/-- A reply of two bytes at its first and its last byte, and the phases without a reply. -/
theorem witness_DataReads :
    let s := after (.clearCounters []) State.reset
    s.port.phase = .replying ∧ s.port.pos = 0 ∧ s.port.pos + 1 < s.port.reply.length ∧
    (after .dataRead s).port.phase = .replying ∧ s.port.reply.length ≤ (after .dataRead s).port.pos + 1 ∧
    1 < s.port.reply.length ∧ State.reset.port.phase = .ready ∧
    (after (.hostDataWrite 0x21) State.reset).port.phase = .filling := by decide +kernel

theorem witness_PortResetByPhase :
    (after (.portReset 0) (after (.restart []) (withTx (.sending .openFrame) inContention))).port.buf = [] ∧
    State.reset.port.phase = .ready ∧ (after (.hostDataWrite 0x21) State.reset).port.phase = .filling ∧
    (after (.restart []) (withTx (.sending .openFrame) inContention)).port.phase = .executing ∧
    (after (.getStatus []) State.reset).port.phase = .replying := by decide +kernel

/-- An unknown code, one operand too many, and a command of each kind in the state that refuses it. -/
theorem witness_MessagesRefused :
    commandCodes.contains 0x49 = false ∧ messageOf (.commit [1]) = some (0x18, [1]) ∧ (0x18, [0]) ∈ commandForms ∧
    [(1 : Byte)].length ∉ [0] ∧ operandsFit [1] = true ∧ (0x18 ∈ configCodes ∧ listening.ctl.state ≠ .config) ∧
    messageOf (.hold []) = some (0x32, []) ∧ (0x32, [0]) ∈ commandForms ∧
    (0x32 ∈ runningCodes ∧ State.reset.ctl.state = .config) := by decide +kernel

/-- Every operand at its highest value, and each bound passed by one. -/
theorem witness_SetStationStores :
    State.reset.ctl.state = .config ∧
    ((31 : Byte).toNat ≤ 31 ∧ 2 ≤ (32 : Byte).toNat ∧ (32 : Byte).toNat ≤ 32 ∧ (3 : Byte).toNat ≤ 3 ∧ 3 ≤ (8 : Byte).toNat ∧
      (8 : Byte).toNat ≤ 8 ∧ (15 : Byte).toNat ≤ 15 ∧ 2 ≤ (15 : Byte).toNat) ∧
    ¬(32 : Byte).toNat ≤ 31 ∧ ¬2 ≤ (1 : Byte).toNat ∧ ¬(4 : Byte).toNat ≤ 3 ∧ ¬3 ≤ (2 : Byte).toNat ∧
    ¬(16 : Byte).toNat ≤ 15 := by decide +kernel

theorem witness_EntryDefinitions :
    State.reset.ctl.state = .config ∧
    ((63 : Byte).toNat ≤ 63 ∧ (31 : Byte).toNat ≤ 31 ∧ (7 : Byte).toNat ≤ 7 ∧ 1 ≤ (15 : Byte).toNat ∧ (15 : Byte).toNat ≤ 15 ∧
      (1 : Byte).toNat ≤ 1) ∧
    ¬(1 ≤ (0 : Byte).toNat) ∧ 63 < (64 : Byte).toNat := by decide +kernel

/-- The ranges of SET-CONDITION's operands, as ConditionDefinitions spells them. -/
abbrev conditionRange (place mode policy held report : Byte) (terms : List Byte) : Prop :=
  place.toNat ≤ 15 ∧ mode.toNat ≤ 3 ∧ policy.toNat ≤ 3 ∧ held.toNat ≤ 1 ∧ report.toNat ≤ 1 ∧
    ∀ i, 5 * i < terms.length →
      (terms.getD (5 * i) 0).toNat ≤ 0x07 ∨ (0x40 ≤ (terms.getD (5 * i) 0).toNat ∧ (terms.getD (5 * i) 0).toNat ≤ 0x7F)

/-- One term and four terms with every operand at its highest value and every reference at a bound of its range; a mode code, a
place and the two references beside a range past it. -/
theorem witness_ConditionDefinitions :
    PortFree State.reset ∧ State.reset.ctl.state = .config ∧ (5 ∈ [5, 10, 15, 20] ∧ 20 ∈ [5, 10, 15, 20]) ∧
    conditionRange 15 3 3 1 1 [0x7F, 0, 1, 0, 1] ∧
    conditionRange 0 0 0 0 0 [0x07, 0, 1, 0, 1, 0x40, 0, 1, 0, 1, 0x7F, 0, 1, 0, 1, 0, 0, 1, 0, 1] ∧
    ¬conditionRange 0 4 0 0 0 [0, 0, 1, 0, 1] ∧ ¬conditionRange 16 0 0 0 0 [0, 0, 1, 0, 1] ∧
    ¬conditionRange 0 0 0 0 0 [0x08, 0, 1, 0, 1] ∧ ¬conditionRange 0 0 0 0 0 [0x80, 0, 1, 0, 1] ∧
    (15 : Byte).toNat ≤ 15 ∧ 15 < (16 : Byte).toNat := by
  refine ⟨portFree_reset, by decide +kernel, by decide +kernel, ?_, ?_, fun h => absurd h.2.1 (by decide +kernel),
    fun h => absurd h.1 (by decide +kernel), fun h => absurd (h.2.2.2.2.2 0 (by decide +kernel)) (by decide +kernel),
    fun h => absurd (h.2.2.2.2.2 0 (by decide +kernel)) (by decide +kernel), by decide +kernel, by decide +kernel⟩
  all_goals
    refine ⟨by decide +kernel, by decide +kernel, by decide +kernel, by decide +kernel, by decide +kernel, fun i h => ?_⟩
    simp only [List.length_cons, List.length_nil] at h
    obtain ⟨n, rfl⟩ : ∃ n : Fin 4, n.val = i := ⟨⟨i, by omega⟩, rfl⟩
    revert h; revert n; decide +kernel

/-- The ranges of SET-OUTPUT's operands, as OutputAndPermitDefinitions spells them. -/
abbrev outputRange (line source kind safe width : Byte) : Prop :=
  line.toNat ≤ 15 ∧ (source.toNat ≤ 15 ∨ source = 0x80) ∧ kind.toNat ≤ 4 ∧ safe.toNat ≤ 1 ∧ (kind = 3 → width ≠ 0)

/-- The last line, source, kind and safe level, a HOST rule and a PULSE rule of the least width; each bound passed by one. -/
theorem witness_OutputAndPermitDefinitions :
    PortFree State.reset ∧ State.reset.ctl.state = .config ∧ outputRange 15 15 4 1 0 ∧ outputRange 0 0x80 3 0 1 ∧
    ¬outputRange 16 0 0 0 0 ∧ ¬outputRange 0 16 0 0 0 ∧ ¬outputRange 0 0x81 0 0 0 ∧ ¬outputRange 0 0 5 0 0 ∧
    ¬outputRange 0 0 0 2 0 ∧ ¬outputRange 0 0 3 0 0 ∧ (15 : Byte).toNat ≤ 15 ∧ 15 < (16 : Byte).toNat := by
  refine ⟨portFree_reset, ?_, ?_, ?_, ?_, ?_, ?_, ?_, ?_, ?_, ?_, ?_⟩ <;> decide +kernel

/-- A defined and an undefined place of each table at its last index, and an index and a kind past the last. -/
theorem witness_ReadConfigReadsBack :
    let e := guardEntry .never 0
    let r : OutRule := ⟨.cond 9, .latch, true, 0⟩
    let d : Condition := ⟨.all, .false, true, true, 50, 0, [⟨.entry 0, 0x000C, 0x000C⟩]⟩
    let s := { inSlots with
      mir := inSlots.mir.set 63 (some e), cond := { inSlots.cond with defs := inSlots.cond.defs.set 15 (some d) }
      out := { inSlots.out with edited := inSlots.out.edited.set 15 (some r) } }
    s.port = inSlots.port ∧ entryAt s.mir 63 = some e ∧ entryAt s.mir 62 = none ∧ condAt s.cond 15 = some d ∧
    condAt s.cond 14 = none ∧ ruleAt s.out.edited 15 = some r ∧ ruleAt s.out.edited 14 = none ∧ 4 < (5 : Byte).toNat ∧
    63 < (64 : Byte).toNat ∧ 15 < (16 : Byte).toNat ∧ (1 : Byte) ≠ 0 ∧
    readCondition 0 0 1 1 50 0 [0x40, 0, 0x0C, 0, 0x0C] = some d ∧ readRule 9 2 1 0 = some r ∧
    State.reset.ctl.state = .config ∧
    (after (.setStation [2, 6, 2, 0x12, 0x34, 4, 5, 0, 8, 3, 3]) State.reset).port.reply = [0, 0] := by decide +kernel

/-- The settings of 9.9 in CONFIG with empty tables, and the station after reset, whose set mark is clear. -/
theorem witness_CommitChecks :
    let s := { State.reset with ctl := { State.reset.ctl with edited := press, editedSet := true } }
    PortFree s ∧ s.ctl.state = .config ∧ s.pts.points.length = 8 ∧ Consistent s ∧ ¬Consistent State.reset := by
  have entries : ∀ i, entryAt State.reset.mir i = none := by
    intro i; simp only [entryAt, State.reset, State.resetWith]; rcases h : (List.replicate Config.mirrorPlaces none)[i]? with - | x
    · rfl
    · exact (List.eq_of_mem_replicate (List.mem_of_getElem? h)) ▸ rfl
  have conds : ∀ i, condAt State.reset.cond i = none := by
    intro i; simp only [condAt, State.reset, State.resetWith, CondUnit.reset]; rcases h : (List.replicate 16 none)[i]? with - | x
    · rfl
    · exact (List.eq_of_mem_replicate (List.mem_of_getElem? h)) ▸ rfl
  have rules : ∀ i, ruleAt State.reset.out.edited i = none := by
    intro i; simp only [ruleAt, State.reset, State.resetWith, OutUnit.reset]; rcases h : (List.replicate 16 none)[i]? with - | x
    · rfl
    · exact (List.eq_of_mem_replicate (List.mem_of_getElem? h)) ▸ rfl
  refine ⟨by unfold PortFree; decide +kernel, by decide +kernel, by decide +kernel,
    ⟨by decide +kernel, fun i e h => ?_, fun i j e f _ h => ?_, fun c d h => ?_, fun i r k h => ?_⟩,
    fun h => absurd h.station.1 (by decide +kernel)⟩
  · simp [entries i] at h
  · simp [entries i] at h
  · simp [conds c] at h
  · simp [rules i] at h

/-- First failures of the first, the third and the last step: NO-STATION after reset, ENTRY-DUPLICATE at place 63 and
OUTPUT-SOURCE at line 15 for the settings of 9.9. -/
theorem witness_CommitChecks_failures :
    let s := { State.reset with ctl := { State.reset.ctl with edited := press, editedSet := true } }
    let e := guardEntry .never 0
    FirstFailure State.reset .noStation 0 ∧
    EntryFails { s with mir := (s.mir.set 0 (some e)).set 63 (some e) } 63 .entryDuplicate ∧
    OutputFails { s with out := { s.out with edited := s.out.edited.set 15 (some ⟨.cond 9, .latch, true, 0⟩) } } 15
      .outputSource ∧
    ConditionFails { s with cond := { s.cond with
      defs := s.cond.defs.set 15 (some ⟨.all, .false, false, true, 0, 0, [⟨.point 2, 0x8000, 0⟩]⟩) } } 15 .termOrder := by
  refine ⟨⟨rfl, rfl⟩, ⟨guardEntry .never 0, by decide +kernel, .inr ⟨rfl, by decide +kernel, 0, by decide,
      guardEntry .never 0, by decide +kernel⟩⟩, ⟨rfl, ⟨.cond 9, .latch, true, 0⟩, 9, by decide +kernel, rfl, by decide +kernel⟩,
    ⟨⟨.all, .false, false, true, 0, 0, [⟨.point 2, 0x8000, 0⟩]⟩, by decide +kernel, .inl ⟨[], ⟨.point 2, 0x8000, 0⟩, [], rfl, by simp, .inr (.inr ⟨rfl, rfl, 15, ?_⟩)⟩⟩⟩
  exact ⟨by decide +kernel, .inl (by decide)⟩

/-- The hypotheses of CommitStarts are those of CommitChecks with eight points; point 1 shows the pins. -/
theorem witness_CommitStarts :
    let s := { State.reset with ctl := { State.reset.ctl with edited := press, editedSet := true } }
    PortFree s ∧ s.ctl.state = .config ∧ Consistent s ∧ s.pts.points.length = 8 ∧ pointAt s 1 = ⟨s.out.pins, .good⟩ :=
  ⟨witness_CommitChecks.1, witness_CommitChecks.2.1, witness_CommitChecks.2.2.2.1, witness_CommitChecks.2.2.1,
    by decide +kernel⟩

theorem witness_StatusAndParameterReads : PortFree inSlots ∧ (31 : Byte).toNat ≤ 31 ∧ 31 < (32 : Byte).toNat :=
  ⟨portFree_inSlots, by decide +kernel⟩

theorem witness_ParameterCommands : PortFree inSlots ∧ (15 : Byte).toNat ≤ 15 ∧ 15 < (16 : Byte).toNat :=
  ⟨portFree_inSlots, by decide +kernel⟩

/-- An own frame of two characters in transmission, its last character and the bit time past it; the line at rest. -/
theorem witness_StatusByteAndPins :
    let s := withTx (.sending .slotFrame) { inSlots with line := { inSlots.line with txFrame := [0x7E, 0x41] } }
    lde s = true ∧ s.line.txFrame[1]? = some 0x41 ∧ 10 * s.line.txFrame.length ≤ 20 ∧ lde inSlots = false := by decide +kernel

theorem witness_TakeEventOldest :
    PortFree State.reset ∧ State.reset.evq = [] ∧
    (after (.hold []) inSlots).evq = ⟨.hold, 1, 0, 91⟩ :: [] := ⟨portFree_reset, by decide +kernel⟩

/-- 30 and 31 records held, with an ordinary and with a LOST record newest. -/
theorem witness_PostedRecords :
    let r : EventRec := ⟨.hold, 0, 0, 0⟩
    let l : EventRec := ⟨.lost, 255, 0x0206, 3⟩
    EventKind.hold ≠ .lost ∧ (List.replicate 30 r).length < 31 ∧ 31 ≤ (List.replicate 31 r).length ∧
    List.replicate 31 r = List.replicate 30 r ++ [r] ∧ 31 ≤ (List.replicate 31 r ++ [l]).length ∧ l.kind = .lost := by
  decide +kernel

theorem witness_QueueSound : QueueSound inSlots := by
  refine ⟨by decide +kernel, fun h => absurd h (by decide +kernel), by decide +kernel⟩

theorem witness_HoldAndResume : PortFree inSlots ∧ Running inSlots ∧ PinsSound inSlots ∧ PortFree listening ∧ Running listening :=
  ⟨portFree_inSlots, by unfold Running; decide +kernel, pinsSound_inSlots, portFree_listening, by unfold Running; decide +kernel⟩

/-- RESTART with LONE set and without. -/
theorem witness_RestartEffect :
    PortFree inSlots ∧ Running inSlots ∧ txSending inSlots = false ∧ inSlots.ctl.holds.lone = false ∧
    (after .lone { inSlots with ctl := { inSlots.ctl with loneCounter := 3 } }).ctl.holds.lone = true :=
  ⟨portFree_inSlots, by unfold Running; decide +kernel, by decide +kernel⟩

theorem witness_ReconfigureEffect : PortFree inSlots ∧ Running inSlots ∧ txSending inSlots = false ∧ PinsSound inSlots :=
  ⟨portFree_inSlots, by unfold Running; decide +kernel, by decide +kernel, pinsSound_inSlots⟩

/-- An own frame in transmission, and a held command of each kind during it and after it, with and without a port reset. -/
theorem witness_HeldCommandWaits :
    let s := withTx (.sending .openFrame) inContention
    let h := after (.restart []) s
    let g := after (.portReset 0) (after (.reconfigure []) s)
    (PortFree s ∧ Running s ∧ txSending s = true) ∧ (h.ctl.held = some .restart ∧ txSending h = true) ∧
    ((withTx .idle h).ctl.held = some .restart ∧ txSending (withTx .idle h) = false ∧ PinsSound (withTx .idle h) ∧
      (withTx .idle h).port.discard = false) ∧
    ((withTx .idle g).ctl.held = some .reconfigure ∧ txSending (withTx .idle g) = false ∧ PinsSound (withTx .idle g) ∧
      (withTx .idle g).port.discard = true) := by unfold PortFree Running PinsSound; decide +kernel

/-- Points 3 and 7 with an equal and with a differing record, the points beside them, and quality code 2. -/
theorem witness_WritePointAnnounces :
    PortFree inSlots ∧ Running inSlots ∧ 3 ≤ (3 : Byte).toNat ∧ (7 : Byte).toNat ≤ 7 ∧ (1 : Byte) = qualityCode .held ∧
    pointAt inSlots 3 = ⟨mkWord 0 0, .held⟩ ∧ pointAt inSlots 7 ≠ ⟨mkWord 0 1, .held⟩ ∧ (2 : Byte).toNat < 3 ∧
    7 < (8 : Byte).toNat ∧ 1 < (2 : Byte).toNat :=
  ⟨portFree_inSlots, by unfold Running; decide +kernel, by decide +kernel⟩

theorem witness_RuntimeReads :
    let s := { inSlots with mir := inSlots.mir.set 63 (some (guardEntry .live 1)) }
    PortFree s ∧ Running s ∧ entryAt s.mir 63 = some (guardEntry .live 1) ∧ entryAt s.mir 0 = none ∧ (63 : Byte).toNat ≤ 63 ∧
    63 < (64 : Byte).toNat := by unfold PortFree Running; decide +kernel

/-- Line 15 as a HOST line and line 7 as a LATCH line: a mask of each, and each mask at the other command. -/
theorem witness_OutputCommands :
    let a := inSlots.out.active.set 7 (some ⟨.cond 9, .latch, true, 0⟩)
    PortFree inSlots ∧ Running inSlots ∧
    (∀ i < 16, bitOf (mkWord 0x80 0) i = true → isHostLine a i = true) ∧
    (∃ i < 16, bitOf (mkWord 0 0x80) i = true ∧ isHostLine a i = false) ∧
    (∀ i < 16, bitOf (mkWord 0 0x80) i = true → isKindLine a .latch i = true) ∧
    (∃ i < 16, bitOf (mkWord 0x80 0) i = true ∧ isKindLine a .latch i = false) ∧
    pointAt inSlots 1 = ⟨inSlots.out.pins, .good⟩ ∧ inSlots.pts.points.length = 8 := by
  unfold PortFree Running; decide +kernel

/-- The highest target, own and peer, the bounds of the index of a READ and of a WRITE, and three and four queries held. -/
theorem witness_QueryCommand :
    let four := [0, 1, 2, 3].map fun n => { sentQuery with tag := BitVec.ofNat 4 n }
    PortFree inSlots ∧ inSlots.ctl.state = .synced ∧ QuerySound inSlots ∧ (5 : Byte).toNat < inSlots.slots ∧
    (2 : Byte).toNat = inSlots.address ∧ (31 : Byte).toNat ≤ 31 ∧ (15 : Byte).toNat ≤ 15 ∧ (four.take 3).length < 4 ∧
    Running listening ∧ listening.ctl.state ≠ .synced ∧ inSlots.slots ≤ (6 : Byte).toNat ∧ 1 < (2 : Byte).toNat ∧
    31 < (32 : Byte).toNat ∧ 15 < (16 : Byte).toNat ∧ 4 ≤ four.length ∧ flagByte true = 1 := by
  unfold PortFree QuerySound Running; decide +kernel

/-- A DONE and a SENT query behind another, and tags 15 and 16 that no place holds. -/
theorem witness_TakeAnswerFrees :
    let q := { sentQuery with state := .done, outcome := some .ok }
    let p := { sentQuery with tag := 9 }
    PortFree inSlots ∧ Running inSlots ∧ [p, q, p] = [p] ++ q :: [p] ∧ (∀ x ∈ [p], x.tag.setWidth 8 ≠ (8 : Byte)) ∧
    q.tag.setWidth 8 = (8 : Byte) ∧ q.state = .done ∧ q.outcome = some .ok ∧ p.state ≠ .done ∧ p.tag.setWidth 8 = (9 : Byte) ∧
    (15 : Byte).toNat ≤ 15 ∧ (∀ x ∈ inSlots.qry.queries, x.tag.setWidth 8 ≠ (15 : Byte)) ∧ 15 < (16 : Byte).toNat := by
  unfold PortFree Running; decide +kernel

theorem witness_StartBitBegins :
    (inSlots.line.rx = .idle ∧ inSlots.line.tx = .idle ∧ inSlots.line.phase = .slots) ∧ listening.line.phase = .watch ∧
    (withTx .gap inSlots).line.tx = .gap ∧ State.reset.line.phase = .off ∧ (receiving inSlots).line.rx ≠ .idle ∧
    ((withTx (.collided .slotFrame) inSlots).line.tx ≠ .idle ∧ (withTx (.collided .slotFrame) inSlots).line.tx ≠ .gap) := by
  decide +kernel

/-- Receptions in every state outside the round: idle, ignored, in CONFIG and FAULT, and in LISTEN invalid and from a peer. -/
theorem witness_ReceptionsOutsideTheRound :
    let f := peerFrame 0 90
    State.reset.line.rx = .idle ∧ (after .startBit State.reset).line.rx = .ignoring ∧
    (receiving State.reset).ctl.state = .config ∧ (receiving faulted).ctl.state = .fault ∧
    (receiving listening).ctl.state = .listen ∧ judge (charsOf [0x7E]) = none ∧
    judge (charsOf (buildSlot f)) = some (.slot f) ∧ f.sender.toNat ≠ listening.address := by decide +kernel

/-- A matching OPEN, a foreign one by its signature and one by its S, and the foreign counts 1, 2 and 3. -/
theorem witness_OpenFramesInListen :
    let m : OpenFrame := ⟨0, 255, 0xDEFF, 6⟩
    let g : OpenFrame := ⟨31, 0, 0xDEFE, 6⟩
    (receiving listening).line.rx = .receiving ∧ listening.ctl.state = .listen ∧ PinsSound (receiving listening) ∧
    judge (charsOf (buildOpen m)) = some (.opening m) ∧ judge (charsOf (buildOpen g)) = some (.opening g) ∧
    m.signature = listening.ctl.signature ∧ m.slots = listening.settings.slots ∧ g.signature ≠ listening.ctl.signature ∧
    (5 : Byte) ≠ listening.settings.slots ∧ listening.line.foreignCount < 2 ∧ 2 ≤ 2 ∧ 3 ≤ 3 ∧
    PinsSound { listening with line := { listening.line with foreignCount := 3 } } ∧ inSlots.ctl.state ≠ .listen := by
  unfold PinsSound; decide +kernel

theorem witness_OpenFramesInSynced :
    let m : OpenFrame := ⟨0, 255, 0xDEFF, 6⟩
    let g : OpenFrame := ⟨0, 0, 0xDEFE, 6⟩
    (receiving inSlots).line.rx = .receiving ∧ inSlots.ctl.state = .synced ∧ judge (charsOf (buildOpen m)) = some (.opening m) ∧
    judge (charsOf (buildOpen g)) = some (.opening g) ∧ m.signature = inSlots.ctl.signature ∧
    m.slots = inSlots.settings.slots ∧ g.signature ≠ inSlots.ctl.signature ∧ inContention.line.phase ≠ .slots ∧
    inSlots.line.phase = .slots ∧ PinsSound (receiving inSlots) := by unfold PinsSound; decide +kernel

/-- Slot 1 expected: the frame of station 1 in its own slot, and of stations 4 and 5, the last of the round, after skipped ones. -/
theorem witness_SlotFrameDelivered :
    let f := peerFrame 1 91
    let g := peerFrame 4 91
    let z := peerFrame 5 91
    (receiving inSlots).line.rx = .receiving ∧ inSlots.ctl.state = .synced ∧ inSlots.line.phase = .slots ∧
    inSlots.line.slot = some 1 ∧ judge (charsOf (buildSlot f)) = some (.slot f) ∧
    judge (charsOf (buildSlot g)) = some (.slot g) ∧ f.sender.toNat ≠ inSlots.address ∧ g.sender.toNat ≠ inSlots.address ∧
    1 ≤ f.sender.toNat ∧ 1 ≤ g.sender.toNat ∧ g.sender.toNat + 1 < inSlots.slots ∧ f.round = inSlots.line.round ∧
    judge (charsOf (buildSlot z)) = some (.slot z) ∧ z.sender.toNat ≠ inSlots.address ∧ z.sender.toNat < inSlots.slots ∧
    inSlots.slots ≤ z.sender.toNat + 1 ∧ z.query = none ∧ z.answer = none ∧
    PinsSound (receiving inSlots) := by unfold PinsSound; decide +kernel

/-- The items, both in one frame of the last station: a WRITE for this station at index 15 and one at 16, a READ, an answer that
matches a SENT query behind another, one that names no outcome, and items for another station; three and four answers pending. -/
theorem witness_DeliveredItems :
    let q : QueryItem := ⟨2, true, 3, 15, 0x0025⟩
    let a : AnswerItem := ⟨2, 8, 90, some .ok, 0x0025⟩
    let f := { peerFrame 5 91 with query := some q, answer := some a }
    let x := { sentQuery with target := 5 }
    let p := { x with tag := 9 }
    (receiving inSlots).line.rx = .receiving ∧ inSlots.ctl.state = .synced ∧ inSlots.line.phase = .slots ∧
    inSlots.line.slot = some 1 ∧ judge (charsOf (buildSlot f)) = some (.slot f) ∧ f.sender.toNat ≠ inSlots.address ∧
    1 ≤ f.sender.toNat ∧ f.sender.toNat < inSlots.slots ∧ f.round = inSlots.line.round ∧
    q.target.toNat = inSlots.address ∧ a.requester.toNat = inSlots.address ∧
    q.index.toNat < 16 ∧ 16 ≤ (16 : Byte).toNat ∧ bitOf 0x8000 15 = true ∧ bitOf 0x7FFF 15 = false ∧
    judge (charsOf (buildSlot { f with query := some ⟨2, false, 3, 31, 0⟩ })) =
      some (.slot { f with query := some ⟨2, false, 3, 31, 0⟩ }) ∧
    [p, x] = [p] ++ x :: [] ∧ p.tag ≠ a.tag ∧ x.state = .sent ∧ x.target = f.sender ∧
    x.tag = a.tag ∧ x.sendRound = a.round ∧ ({ a with outcome := none } : AnswerItem).outcome = none ∧
    (List.replicate 4 (⟨3, 0, 0, .ok, 0⟩ : Answer)).length = 4 ∧ (List.replicate 3 (⟨3, 0, 0, .ok, 0⟩ : Answer)).length < 4 ∧
    (5 : Byte).toNat ≠ inSlots.address := by decide +kernel

/-- Slot 1 expected: the own address, station 0 below it, station 6 outside the round and station 4 of another round; the last
slot expected. -/
theorem witness_SlotFrameChecks :
    let own := peerFrame 2 91
    let low := peerFrame 0 91
    let out := peerFrame 6 91
    let old := peerFrame 4 90
    (receiving inSlots).line.rx = .receiving ∧ judge (charsOf (buildSlot own)) = some (.slot own) ∧
    judge (charsOf (buildSlot low)) = some (.slot low) ∧ judge (charsOf (buildSlot out)) = some (.slot out) ∧
    judge (charsOf (buildSlot old)) = some (.slot old) ∧ own.sender.toNat = inSlots.address ∧
    PinsSound (receiving inSlots) ∧ PinsSound (receiving listening) ∧ listening.ctl.state = .listen ∧
    inSlots.line.slot = some 1 ∧ low.sender.toNat < 1 ∧ low.sender.toNat < inSlots.slots ∧ 1 + 1 < inSlots.slots ∧
    inSlots.slots ≤ 5 + 1 ∧ { (receiving inSlots).line with slot := some 5 }.slot = some 5 ∧
    inSlots.slots ≤ out.sender.toNat ∧ (1 ≤ old.sender.toNat ∧ old.round ≠ inSlots.line.round) ∧
    inContention.line.phase = .contention ∧ low.sender.toNat ≠ inContention.address := by unfold PinsSound; decide +kernel

/-- R54: a reception in slot 1 breaks off, its end recognised a CT (2 units) after the start point of slot 2. The own frame shows
point 3 as it stood then, 7, not the 9 written in between. -/
theorem test_slot_start_point :
    let a := { (after .startBit inSlots) with pts := { inSlots.pts with points := inSlots.pts.points.set 3 ⟨7, .good⟩ } }
    let b := { tick (tick a) with pts := { inSlots.pts with points := inSlots.pts.points.set 3 ⟨9, .good⟩ } }
    let t := after (.receptionEnd (charsOf [0x55])) b
    a.ct = 2 ∧ t.line.slot = some 2 ∧ t.line.pictures = [] ∧
    (t.line.txFrame.drop 6).take 8 = [0x00, 0x08, 0x00, 0x00, 0x00, 0x00, 0x00, 0x07] := by decide +kernel

/-- Slots 1 and 5, the last of the round, with nothing begun and with an invalid reception; the contention. -/
theorem witness_SlotsFollowed :
    inSlots.ctl.state = .synced ∧ inSlots.line.phase = .slots ∧ inSlots.line.slotTimer ≠ none ∧ inSlots.line.rx = .idle ∧
    inSlots.line.tx = .idle ∧ inSlots.line.slot = some 1 ∧ 1 + 1 < inSlots.slots ∧ inSlots.slots ≤ 5 + 1 ∧
    listening.ctl.state ≠ .synced ∧ (receiving inSlots).line.rx = .receiving ∧ judge (charsOf [0x55]) = none ∧
    reachedEnd (charsOf [0x7E, 0x41, 0x00, 0, 0]) = true ∧ reachedEnd (charsOf [0x55]) = false ∧
    (receiving inSlots).line.pictures.getLast? = none ∧ (tick (after .startBit inSlots)).line.pictures.getLast? ≠ none ∧
    inContention.line.phase = .contention := by decide +kernel

/-- The gathered frame with the line free and with a reception, and the completed frame in slots 2 and 5 with a queued query. -/
theorem witness_OwnSlotFrame :
    let s := withTx .gap inSlots
    let t := withTx (.sending .slotFrame) inSlots
    s.ctl.state = .synced ∧ s.line.tx = .gap ∧ mayBegin s = true ∧ mayBegin (receiving s) = false ∧ txSending s = false ∧
    t.line.tx = .sending .slotFrame ∧ t.line.slot = some 1 ∧ QuerySound t ∧ 1 + 1 < t.slots ∧ t.slots ≤ 5 + 1 := by
  unfold QuerySound; decide +kernel

theorem witness_OwnOpenFrame :
    let l := { listening with line := { listening.line with coldStart := some 0 } }
    inContention.ctl.state = .synced ∧ inContention.line.phase = .contention ∧ inContention.line.contention ≠ none ∧
    inContention.line.tx = .idle ∧ mayBegin inContention = true ∧ listening.ctl.state ≠ .synced ∧
    l.ctl.state = .listen ∧ l.line.coldStart ≠ none ∧ l.line.tx = .idle ∧ mayBegin l = true ∧ PinsSound l ∧
    listening.line.coldStart = none ∧ (withTx (.sending .openFrame) inContention).line.tx = .sending .openFrame := by
  unfold PinsSound; decide +kernel

/-- Runs of 1 and 2, with and without a held command, in SYNCED and in FAULT; a report left and none. -/
theorem witness_CollisionsCounted :
    let s := withTx (.sending .slotFrame) inSlots
    let two := { s with line := { s.line with collisionRun := 2 } }
    let held := { two with ctl := { two.ctl with held := some .restart } }
    let left := { inSlots with line := { inSlots.line with dupReport := true } }
    s.line.tx = .sending .slotFrame ∧ 1 < 2 ∧ s.line.collisionRun < 2 ∧ 2 ≤ two.line.collisionRun ∧ held.ctl.held ≠ none ∧
    two.ctl.held = none ∧ two.ctl.state = .synced ∧ PinsSound two ∧ faulted.ctl.state = .fault ∧ txSending inSlots = false ∧
    inSlots.line.dupReport = false ∧ left.line.dupReport = true ∧ PinsSound left := by unfold PinsSound; decide +kernel

theorem witness_DriverErrorsCounted :
    let s := withTx (.sending .openFrame) inContention
    let one := { s with line := { s.line with driverRun := 1 } }
    let held := { one with ctl := { one.ctl with held := some .reconfigure } }
    let left := { inSlots with line := { inSlots.line with driverReport := true } }
    s.line.tx = .sending .openFrame ∧ s.line.driverRun < 1 ∧ 1 ≤ one.line.driverRun ∧ held.ctl.held ≠ none ∧
    one.ctl.held = none ∧ one.ctl.state = .synced ∧ PinsSound one ∧ State.reset.ctl.state = .config ∧
    txSending inContention = false ∧ inSlots.line.driverReport = false ∧ left.line.driverReport = true ∧ PinsSound left := by
  unfold PinsSound; decide +kernel

theorem witness_CollidedActivityEnds :
    (withTx (.collided .slotFrame) inSlots).line.tx = .collided .slotFrame ∧ inSlots.ctl.state = .synced ∧
    inSlots.line.slot = some 1 ∧ 1 + 1 < inSlots.slots ∧ inSlots.slots ≤ 5 + 1 ∧
    (withTx (.collided .openFrame) inContention).line.tx = .collided .openFrame ∧ listening.ctl.state = .listen ∧
    faulted.ctl.state = .fault ∧ (∀ kind, inSlots.line.tx ≠ .collided kind) :=
  ⟨rfl, by decide +kernel, by decide +kernel, by decide +kernel, by decide +kernel, rfl, by decide +kernel, by decide +kernel,
    fun _ h => by cases h⟩

/-- The age-step timer in LISTEN, and place 63 below, at and above its age limit of 2. -/
theorem witness_AgeSteps :
    let s := { listening with ctl := { listening.ctl with ageTimer := some 0 } }
    let at_ := { s with mir := s.mir.set 63 (some (guardEntry .held 2)) }
    let below := { s with mir := s.mir.set 63 (some (guardEntry .live 1)) }
    s.ctl.state = .listen ∧ s.ctl.ageTimer ≠ none ∧ inSlots.ctl.ageTimer = none ∧
    entryAt at_.mir 63 = some (guardEntry .held 2) ∧ (guardEntry .held 2).ageLimit.toNat ≤ (guardEntry .held 2).age ∧
    entryAt below.mir 63 = some (guardEntry .live 1) ∧ (guardEntry .live 1).age < (guardEntry .live 1).ageLimit.toNat ∧
    entryAt s.mir 0 = none := by decide +kernel

/-- A SENT query at Q - 1 and at Q rounds, the lone counter below and at L of 3. -/
theorem witness_RoundLimits :
    let s := { inSlots with ctl := { inSlots.ctl with loneCounter := 3 } }
    inSlots.ctl.state = .synced ∧ (sentQuery.state = .sent ∧ ¬inSlots.settings.timeout.toNat ≤ sentQuery.waited) ∧
    inSlots.settings.timeout.toNat ≤ sentQuery.waited + 1 ∧ listening.ctl.state ≠ .synced ∧
    0 < s.settings.loneLimit.toNat ∧ s.ctl.loneCounter = s.settings.loneLimit.toNat ∧ PinsSound s ∧
    inSlots.ctl.loneCounter ≠ inSlots.settings.loneLimit.toNat := by unfold PinsSound; decide +kernel

/-- Line 15: its level already there; back at the filtered level; running; idle with F of 5 and of 0; expiring and idle timers. -/
theorem witness_InputFiltering :
    let s := after (.inputChange 15 true) inSlots
    let z := { inSlots with pts := { inSlots.pts with filterTime := 0 } }
    inSlots.pts.points.length = 8 ∧ inSlots.pts.filterTimers.length = 16 ∧ bitOf inSlots.pts.raw 15 = false ∧
    (bitOf s.pts.raw 15 ≠ false ∧ bitOf s.pts.filtered 15 = false) ∧
    (bitOf ({ s.pts with raw := 0 } : PointUnit).raw 15 ≠ true ∧ bitOf s.pts.filtered 15 ≠ true ∧
      isRunning (timerAt s.pts.filterTimers 15) = true) ∧
    (bitOf inSlots.pts.raw 15 ≠ true ∧ bitOf inSlots.pts.filtered 15 ≠ true ∧
      isRunning (timerAt inSlots.pts.filterTimers 15) = false ∧ inSlots.pts.filterTime ≠ 0) ∧
    (z.pts.filterTime = 0 ∧ PinsSound z ∧ z.ctl.state ≠ .config) ∧
    (bitOf 0x8000 15 = true ∧ timerAt s.pts.filterTimers 15 = .running true 5) ∧ bitOf 0x8000 0 = false := by
  unfold PinsSound; decide +kernel

/-- A known condition, and an unknown one. -/
theorem witness_ConditionEvaluation :
    let d : Condition := ⟨.any, .keep, true, true, 0, 0, [⟨.point 3, 0x8001, 0⟩, ⟨.entry 63, 0, 0⟩]⟩
    allKnown inSlots d = false ∧ allKnown inSlots { d with heldUnknown := false } = true := by decide +kernel

/-- The condition of 6.6 on point 0 alone, at place 15: the only condition of a SYNCED station. -/
def oneCondition : State :=
  { inSlots with cond := { inSlots.cond with
    defs := inSlots.cond.defs.set 15 (some ⟨.notAll, .true, false, true, 0, 20, [⟨.point 0, 0x0020, 0x0020⟩]⟩)
    notices := [.point 0, .point 4] } }

theorem conditionsSound_oneCondition : ConditionsSound oneCondition := by
  have timers : ∀ k, timerAt oneCondition.cond.timers k = .idle := by
    intro k; simp only [timerAt, oneCondition, inSlots, station, State.reset, State.resetWith, CondUnit.reset]
    rcases h : (List.replicate 16 Timer.idle)[k]? with - | x
    · rfl
    · exact List.eq_of_mem_replicate (List.mem_of_getElem? h)
  refine ⟨by decide +kernel, by decide +kernel, by decide +kernel, fun k _ => ⟨fun _ => ?_, ?_⟩, by decide +kernel,
    fun h => absurd h (by decide +kernel)⟩
  · exact ⟨bitOf_zero k, bitOf_zero k, bitOf_zero k, timers k⟩
  · simp only [timers k]; rfl

/-- R89: condition 0, confirmed at once, brings condition 3 into its pass by bit 0 of point 2, and with it condition 7 by bit 3. -/
theorem test_pass_cascade :
    let own : Nat → Condition := fun k => ⟨.any, .false, false, true, 0, 0, [⟨.point 2, BitVec.ofNat 16 (2 ^ k), 0xFFFF⟩]⟩
    let s := { inSlots with cond := { inSlots.cond with
      defs := ((inSlots.cond.defs.set 0 (some ⟨.any, .false, false, true, 0, 0, [⟨.point 3, 1, 0⟩]⟩)).set 3
        (some (own 0))).set 7 (some (own 3))
      notices := [.point 3] } }
    (after .conditionPass s).cond.confirmed = 0x0089 ∧ (after .conditionPass s).evq.length = 3 := by decide +kernel

/-- A notice that concerns the condition, and one that does not; a term on point 2 that a changed bit concerns. -/
theorem witness_ConditionPassTaken :
    State.reset.ctl.state = .config ∧ oneCondition.ctl.state ≠ .config ∧ oneCondition.cond.notices = .point 0 :: [.point 4] ∧
    ConditionsSound oneCondition ∧ condAt oneCondition.cond 15 ≠ none ∧
    concernsTerm (.point 0) ⟨.point 0, 0x0020, 0x0020⟩ = true ∧ concernsTerm (.point 4) ⟨.point 0, 0x0020, 0x0020⟩ = false ∧
    (TermRef.point 0 ≠ .point 1 ∧ TermRef.point 0 ≠ .point 2) ∧
    Concerns (.point 0) ⟨.point 0, 0x0020, 0x0020⟩ ∧ Concerns (.point2Bit 14) ⟨.point 2, 0x4000, 0⟩ :=
  ⟨by decide +kernel, by decide +kernel, by decide +kernel, conditionsSound_oneCondition, by decide +kernel, by decide +kernel,
    by decide +kernel, by decide +kernel, ⟨by decide +kernel, 0, rfl, rfl⟩, ⟨by decide +kernel, rfl, by decide +kernel⟩⟩

/-- The running timer of a defined condition that is a line's source; an idle timer, and a condition that is not defined. -/
theorem witness_ConfirmTimerExpires :
    let s := { oneCondition with
      cond := { oneCondition.cond with timers := oneCondition.cond.timers.set 15 (.running true 0), raw := 0x8000 }
      out := { oneCondition.out with active := oneCondition.out.active.set 7 (some ⟨.cond 15, .latch, true, 0⟩) } }
    timerAt s.cond.timers 15 = .running true 0 ∧ condAt s.cond 15 ≠ none ∧ s.pts.points.length = 8 ∧
    s.out.pulse.length = 16 ∧ s.ctl.state ≠ .config ∧ s.evq.length < 31 ∧
    ruleAt s.out.active 7 = some ⟨.cond 15, .latch, true, 0⟩ ∧ ruleAt s.out.active 8 = none ∧
    timerAt s.cond.timers 14 = .idle ∧ condAt s.cond 14 = none ∧ pointAt s 1 = ⟨s.out.pins, .good⟩ ∧ Running s := by
  unfold Running; decide +kernel

theorem witness_PulseTimerExpires :
    let o : OutUnit := { inSlots.out with
      active := inSlots.out.active.set 15 (some ⟨.cond 9, .pulse, false, 200⟩)
      pulse := inSlots.out.pulse.set 15 (.running false 0)
      level := 0x8000
      pins := 0x8000 }
    let s := { inSlots with
      out := o
      pts := { inSlots.pts with points := inSlots.pts.points.set 1 ⟨0x8000, .good⟩ } }
    timerAt s.out.pulse 15 = .running false 0 ∧ s.pts.points.length = 8 ∧ pointAt s 1 = ⟨s.out.pins, .good⟩ ∧
    timerAt s.out.pulse 0 = .idle := by decide +kernel

/-- The shortest and the longest SLOT frame, and an OPEN frame of station 31. -/
theorem witness_FramesReadBack :
    SlotFrame.fits (peerFrame 31 255) ∧
    SlotFrame.fits ⟨0, 0, ⟨true, true⟩, List.replicate 8 ⟨0xFFFF, .held⟩, some ⟨31, true, 15, 31, 0xFFFF⟩,
      some ⟨31, 15, 255, some .badIndex, 0xFFFF⟩⟩ ∧ (31 : Byte).toNat < 32 := by
  simp [SlotFrame.fits, peerFrame, QueryItem.fits, AnswerItem.fits]

/-! ### The invariants: a state that meets them, and a step that answers -/

/-- A SYNCED station with an entry, a SENT and a DONE query, a pending answer and a record, whose next command is SKIP_POINT. -/
def busy : State :=
  { inSlots with
    pending := [.skipPoint]
    mir := inSlots.mir.set 63 (some (guardEntry .live 1))
    qry := ⟨[sentQuery, { sentQuery with state := .done, outcome := some .timeout, tag := 9 }], 10, [⟨5, 1, 91, .ok, 7⟩]⟩
    evq := [⟨.query, 9, 0x0303, 90⟩] }

theorem step_busy : step busy = .next (after .skipPoint { busy with pending := [] }) := rfl

theorem witness_QueueStaysSound : QueueSound busy :=
  ⟨by decide +kernel, fun h => absurd h (by decide +kernel), by decide +kernel⟩

theorem witness_MirrorStaysSound : MirrorSound busy := by
  refine ⟨by decide +kernel, fun e h => ?_⟩
  have : e = guardEntry .live 1 := by
    rcases List.mem_or_eq_of_mem_set h with h | h
    · exact absurd (List.eq_of_mem_replicate h) (by simp)
    · exact Option.some.inj h
  subst this
  exact ⟨by unfold EntrySound; decide +kernel, fun h => absurd h (by decide +kernel)⟩

theorem witness_QueriesStaySound : QuerySound busy := by unfold QuerySound; decide +kernel

/-- The conditions of `oneCondition`, and lines of which one is latched by it. -/
theorem witness_ConditionsAndOutputsStaySound :
    ConditionsSound oneCondition ∧ step oneCondition = .next (after .conditionPass oneCondition) ∧
    OutputsSound { inSlots with out := { inSlots.out with
      active := inSlots.out.active.set 7 (some ⟨.cond 9, .latch, true, 0⟩), level := 0x0080, latched := 0x0080 } } := by
  have timers : ∀ k, timerAt inSlots.out.pulse k = .idle := by
    intro k; simp only [timerAt, inSlots, station, State.reset, State.resetWith, OutUnit.reset]
    rcases h : (List.replicate 16 Timer.idle)[k]? with - | x
    · rfl
    · exact List.eq_of_mem_replicate (List.mem_of_getElem? h)
  refine ⟨conditionsSound_oneCondition, rfl, by decide +kernel, by decide +kernel, by decide +kernel, by decide +kernel, ?_⟩
  intro i hi
  refine ⟨fun h => absurd (timers i ▸ h) (by decide), ?_⟩
  interval_cases i <;> exact (by trivial)

/-- The station and its pins in slot 1 of a round. -/
theorem witness_StationAndPinsStaySound : StationSound busy ∧ PinsSound busy := by
  refine ⟨⟨.inl rfl, by decide +kernel, by decide +kernel, ?_, by decide +kernel, ?_, by decide +kernel, by decide +kernel,
    by decide +kernel, nofun, by decide +kernel, by decide +kernel⟩, by unfold PinsSound; decide +kernel⟩
  · intro c h
    obtain rfl : press = c := Option.some.inj h
    unfold SettingsRun; decide +kernel
  · intro k h
    obtain rfl : 1 = k := Option.some.inj h
    decide +kernel

/-- The port in each phase: free, with the longest message one byte short, with a held command after a port reset, and with the
last byte of a reply unread. -/
theorem witness_PortStaysSound :
    let at_ := fun p : HostPort => { busy with port := p }
    PortSound busy ∧
    PortSound (at_ { busy.port with phase := .filling, buf := List.replicate 31 0, len := some 30 }) ∧
    PortSound { at_ { busy.port with phase := .executing, discard := true } with
      ctl := { busy.ctl with held := some .restart } } ∧
    PortSound (at_ { busy.port with phase := .replying, reply := [0, 0], pos := 1 }) := by
  have defs : ∀ d, some d ∈ busy.cond.defs → d.terms.length ≤ 4 := fun d h =>
    absurd (List.eq_of_mem_replicate h) (by simp)
  have last : 1 ≤ 30 ∧ 30 ≤ 30 ∧ 2 ≤ (List.replicate 31 (0 : Byte)).length ∧ (List.replicate 31 (0 : Byte)).length < 2 + 30 := by
    decide
  exact ⟨⟨by decide +kernel, by decide +kernel, defs, ⟨rfl, rfl, rfl, rfl⟩⟩,
    ⟨by decide +kernel, by decide +kernel, defs, ⟨rfl, rfl, rfl, last⟩⟩,
    ⟨by decide +kernel, by decide +kernel, defs, ⟨by decide +kernel, rfl, rfl⟩⟩,
    ⟨by decide +kernel, by decide +kernel, defs, ⟨rfl, rfl, by decide +kernel, by decide +kernel⟩⟩⟩

/-- A command of the host and an event of the line that change the station state. -/
theorem witness_StationStateMoves :
    (hostAct (.restart []) = true ∧ (after (.restart []) inSlots).ctl.state ≠ inSlots.ctl.state) ∧
    (hostAct .collisionLimit = false ∧
      (after .collisionLimit { inSlots with line := { inSlots.line with dupReport := true } }).ctl.state ≠ inSlots.ctl.state) := by
  decide +kernel

theorem witness_DefinitionsStandOutsideConfig :
    inSlots.ctl.state ≠ .config ∧ (∀ w, Instr.skipPoint ≠ .hardwareReset w) ∧
    (inSlots.port.discard = true → inSlots.port.phase = .executing) ∧
    exec .skipPoint inSlots = .next (after .skipPoint inSlots) :=
  ⟨by decide +kernel, nofun, by decide +kernel, rfl⟩

end Sys2Proof.Tests
end

