-- ==== Sys2Proof/Proofs/ConditionEvaluation.lean ====
section
/-! PROOF. The evaluation of a condition (R84 to R87): what a term contributes to the pool of counted bits, when it is known, and
from these the result of the whole condition. -/

namespace Sys2Proof.Machine

/-! ### What one term contributes (R84) -/

/-- The model tests a whole masked word at once; the spec speaks of its bits. -/
theorem word_ne_zero_iff (w : Word) : w ≠ 0 ↔ ∃ i < 16, bitOf w i = true := by
  constructor
  · intro hne
    by_contra hnone
    refine hne (word_ext fun i hi => ?_)
    have hclear : bitOf w i = false := Bool.eq_false_iff.2 fun hbit => hnone ⟨i, hi, hbit⟩
    exact hclear.trans (bitOf_zero i).symm
  · rintro ⟨i, -, hbit⟩ rfl
    simp at hbit

theorem termFails_iff (s : State) (t : Term) :
    termFails s t = true ↔ ∃ i < 16, bitOf t.mask i = true ∧ bitOf (refValue s t.ref) i ≠ bitOf t.pattern i := by
  rw [termFails, decide_eq_true_iff, word_ne_zero_iff]
  refine exists_congr fun i => and_congr_right fun _ => ?_
  simp [and_comm]

theorem termMatches_iff (s : State) (t : Term) :
    termMatches s t = true ↔ ∃ i < 16, bitOf t.mask i = true ∧ bitOf (refValue s t.ref) i = bitOf t.pattern i := by
  rw [termMatches, decide_eq_true_iff, word_ne_zero_iff]
  refine exists_congr fun i => and_congr_right fun hi => ?_
  simp [bitOf_not _ _ hi, and_comm]

theorem not_termFails_iff (s : State) (t : Term) :
    ¬ termFails s t = true ↔ ∀ i < 16, bitOf t.mask i = true → bitOf (refValue s t.ref) i = bitOf t.pattern i := by
  rw [termFails_iff]; push Not; rfl

theorem not_termMatches_iff (s : State) (t : Term) :
    ¬ termMatches s t = true ↔ ∀ i < 16, bitOf t.mask i = true → bitOf (refValue s t.ref) i ≠ bitOf t.pattern i := by
  rw [termMatches_iff]; push Not; rfl

/-! ### When a term is known (R85) -/

theorem refKnown_point_iff (s : State) (held : Bool) (p : Fin 8) :
    refKnown s held (.point p) = true ↔ (pointAt s p.val).quality = .good ∨ held = false := by
  cases h : (pointAt s p.val).quality <;> simp [refKnown, h]

theorem refKnown_entry_iff (s : State) (held : Bool) (i : Fin 64) :
    refKnown s held (.entry i) = true ↔
      ∃ e, entryAt s.mir i.val = some e ∧ (e.status = .live ∨ (e.status = .held ∧ held = false)) := by
  cases he : entryAt s.mir i.val with
  | none => simp [refKnown, he]
  | some e => cases hs : e.status <;> simp [refKnown, he, hs]

theorem allKnown_iff (s : State) (d : Condition) :
    allKnown s d = true ↔ ∀ t ∈ d.terms, t.mask = 0 ∨ refKnown s d.heldUnknown t.ref = true := by
  simp [allKnown, termKnown]

/-! ### The raw result (R86, R87) -/

theorem rawResult_of_known {s : State} {d : Condition} (k : Nat) (h : allKnown s d = true) :
    rawResult s k d = evaluated s d := if_pos h

/-- Settles O47: the pooled result by the mode, the known condition by the kind of each reference, the policy by the branch of the
raw result. -/
theorem conditionEvaluation : Obligations.ConditionEvaluation := by
  intro s k d
  refine ⟨?pool, ?known, rawResult_of_known k, ?policy⟩
  case pool =>
    cases hm : d.mode with
    | all => simp only [evaluated, hm, Bool.not_eq_true', List.any_eq_false, not_termFails_iff]
    | any => simp only [evaluated, hm, List.any_eq_true, termMatches_iff]
    | noneOf => simp only [evaluated, hm, Bool.not_eq_true', List.any_eq_false, not_termMatches_iff]
    | notAll => simp only [evaluated, hm, List.any_eq_true, termFails_iff]
  case known =>
    rw [allKnown_iff]
    refine forall₂_congr fun t _ => or_congr_right ?_
    cases t.ref with
    | point p => exact refKnown_point_iff s d.heldUnknown p
    | entry i => exact refKnown_entry_iff s d.heldUnknown i
  case policy =>
    intro h
    cases hp : d.policy <;> simp [rawResult, h, hp]

end Sys2Proof.Machine
end

