-- ==== Sys2Proof/Proofs/EntryDefinitions.lean ====
section
/-! PROOF. The definition commands of the mirror table in CONFIG (R160, R161): what the bodies of SET-ENTRY and CLEAR-ENTRY answer
in CONFIG, and from these the outcome of each command at a free port. -/

namespace Sys2Proof.Machine

/-! ### The bodies in CONFIG -/

theorem inConfig_of_config {s : State} (hc : s.ctl.state = .config) (r : Result) : inConfig s r = r := if_pos hc

/-- A flag operand is read as a Boolean exactly when it is 0 or 1. -/
theorem readFlag_eq (b : Byte) : readFlag b = if b.toNat ≤ 1 then some (decide (b = 1)) else none := by
  by_cases h0 : b = 0
  · subst h0; rfl
  by_cases h1 : b = 1
  · subst h1; rfl
  have hlarge : ¬ b.toNat ≤ 1 := by bv_omega
  simp only [readFlag, h0, h1, hlarge, if_false]

/-- The operands that SET-ENTRY takes (R160). -/
def EntryInRange (place source point age report : Byte) : Prop :=
  place.toNat ≤ 63 ∧ source.toNat ≤ 31 ∧ point.toNat ≤ 7 ∧ 1 ≤ age.toNat ∧ age.toNat ≤ 15 ∧ report.toNat ≤ 1

theorem cmdSetEntry_of_inRange {place source point age report : Byte} {s : State} (hc : s.ctl.state = .config)
    (hr : EntryInRange place source point age report) :
    cmdSetEntry [place, source, point, age, report] s =
      okPlain (setPlace place.toNat (some (freshEntry source point age (decide (report = 1)))) s) := by
  obtain ⟨hplace, hsource, hpoint, hmin, hmax, hreport⟩ := hr
  simp only [cmdSetEntry, inConfig_of_config hc]
  rw [if_pos ⟨hplace, hsource, hpoint, hmin, hmax⟩, readFlag_eq, if_pos hreport]

theorem cmdSetEntry_of_not_inRange {place source point age report : Byte} {s : State} (hc : s.ctl.state = .config)
    (hr : ¬ EntryInRange place source point age report) :
    cmdSetEntry [place, source, point, age, report] s = refuse .badOperand s := by
  simp only [cmdSetEntry, inConfig_of_config hc]
  split
  case isTrue hbody =>
    obtain ⟨hplace, hsource, hpoint, hmin, hmax⟩ := hbody
    have hflag : ¬ report.toNat ≤ 1 := fun hreport => hr ⟨hplace, hsource, hpoint, hmin, hmax, hreport⟩
    rw [readFlag_eq, if_neg hflag]
  case isFalse => rfl

theorem cmdClearEntry_of_config (place : Byte) {s : State} (hc : s.ctl.state = .config) :
    cmdClearEntry [place] s = if place.toNat ≤ 63 then okPlain (setPlace place.toNat none s) else refuse .badOperand s :=
  inConfig_of_config hc _

/-! ### The commands -/

theorem exec_setEntry {ops : List Byte} {s : State} (hf : operandsFit ops = true) (hp : PortFree s) :
    exec (.setEntry ops) s = .next (execute (0x11 :: BitVec.ofNat 8 ops.length :: ops) (cmdSetEntry ops) s) :=
  exec_body (.setEntry ops) 0x11 ops s rfl hf hp

theorem exec_clearEntry {ops : List Byte} {s : State} (hf : operandsFit ops = true) (hp : PortFree s) :
    exec (.clearEntry ops) s = .next (execute (0x12 :: BitVec.ofNat 8 ops.length :: ops) (cmdClearEntry ops) s) :=
  exec_body (.clearEntry ops) 0x12 ops s rfl hf hp

/-- Settles O11: each outcome is the body's answer in CONFIG, placed as the reply. -/
theorem entryDefinitions : Obligations.EntryDefinitions := by
  intro place source point age report s hp hc
  have hbegin (m : List Byte) : (beginExecution m s).ctl.state = .config := hc
  rw [exec_setEntry rfl hp, exec_clearEntry rfl hp]
  refine ⟨fun hr => congrArg _ ?set, fun hr => congrArg _ ?setRefused, fun hplace => congrArg _ ?clear,
    fun hplace => congrArg _ ?clearRefused⟩
  case set => exact execute_reply _ _ s _ .ok [] hp (cmdSetEntry_of_inRange (hbegin _) hr) rfl
  case setRefused => exact execute_refuse _ _ s .badOperand hp (cmdSetEntry_of_not_inRange (hbegin _) hr)
  case clear =>
    exact execute_reply _ _ s _ .ok [] hp ((cmdClearEntry_of_config place (hbegin _)).trans (if_pos hplace)) rfl
  case clearRefused =>
    exact execute_refuse _ _ s .badOperand hp
      ((cmdClearEntry_of_config place (hbegin _)).trans (if_neg (Nat.not_le.2 hplace)))

end Sys2Proof.Machine
end

/-! PROOF. The event queue and the parameter store as the host meets them (R125, R127, R184 to R192): what a posting leaves below
31 records and from 31 on, and what CLEAR-COUNTERS, WRITE-PARAMETER and TAKE-EVENT answer at a free port. -/

namespace Sys2Proof.Machine

/-! ### Postings (R188, R189) -/

theorem enqueue_of_room {q : List EventRec} (r : EventRec) (h : q.length < 31) : enqueue q r = q ++ [r] := if_pos h

/-- A further drop of a run advances the newest LOST record in its place (R189). -/
theorem enqueue_full_lost {q : List EventRec} {n : EventRec} (r : EventRec) (h : 31 ≤ (q ++ [n]).length) (hn : n.kind = .lost) :
    enqueue (q ++ [n]) r = q ++ [lostAgain n r] := by
  have hfull : ¬ (q ++ [n]).length < Config.ordinaryRoom := Nat.not_lt.2 h
  simp only [enqueue, if_neg hfull, List.getLast?_concat, List.dropLast_concat, if_pos hn]

/-- The first drop of a run appends a LOST record (R189). -/
theorem enqueue_full_ordinary {q : List EventRec} {n : EventRec} (r : EventRec) (h : 31 ≤ (q ++ [n]).length)
    (hn : n.kind ≠ .lost) : enqueue (q ++ [n]) r = q ++ [n, lostRecord r] := by
  have hfull : ¬ (q ++ [n]).length < Config.ordinaryRoom := Nat.not_lt.2 h
  simp only [enqueue, if_neg hfull, List.getLast?_concat, if_neg hn, List.append_assoc, List.cons_append, List.nil_append]

theorem post_of_room (kind : EventKind) (subject : Byte) (detail : Word) {s : State} (h : s.evq.length < 31) :
    post kind subject detail s = setEvq (s.evq ++ [⟨kind, subject, detail, s.line.round⟩]) s := by
  have hroom : s.evq.length < Config.ordinaryRoom := h
  rw [post_eq, if_pos hroom, enqueue_of_room _ h]
  rfl

theorem post_of_full (kind : EventKind) (subject : Byte) (detail : Word) {s : State} (h : 31 ≤ s.evq.length) :
    post kind subject detail s = setEvq (enqueue s.evq ⟨kind, subject, detail, s.line.round⟩)
      (setCounters { s.par.counters with lostRecords := satInc s.par.counters.lostRecords } s) := by
  have hfull : ¬ s.evq.length < Config.ordinaryRoom := Nat.not_lt.2 h
  rw [post_eq, if_neg hfull]

/-- The saturated value may be written for the value that stays (the LOST record's count and word 29). -/
theorem ite_eq_saturated {w : Nat} (a top next : BitVec w) : (if a = top then a else next) = if a = top then top else next :=
  ite_congr rfl (fun h => h) (fun _ => rfl)

/-- Settles O21: a posting with room, a drop onto a newest LOST record, a first drop, and the bound kept by `enqueue_ok`. -/
theorem postedRecords : Obligations.PostedRecords := by
  intro kind subject detail s hkind
  refine ⟨fun hroom => post_of_room kind subject detail hroom, ?drop, ?bound⟩
  case drop =>
    intro q n hfull hq
    rw [post_of_full kind subject detail hfull, satInc, ite_eq_saturated]
    rw [hq] at hfull ⊢
    by_cases hn : n.kind = .lost
    · rw [enqueue_full_lost _ hfull hn, if_pos hn, lostAgain, ite_eq_saturated]
      rfl
    · rw [enqueue_full_ordinary _ hfull hn, if_neg hn]
      rfl
  case bound =>
    intro hsound
    rw [queueSound_iff] at hsound ⊢
    rw [post_eq, setEvq_evq]
    exact enqueue_ok _ hkind hsound

/-! ### The parameter commands (R125, R127, R184) -/

theorem exec_writeParameter {ops : List Byte} {s : State} (hf : operandsFit ops = true) (hp : PortFree s) :
    exec (.writeParameter ops) s = .next (execute (0x23 :: BitVec.ofNat 8 ops.length :: ops) (cmdWriteParameter ops) s) :=
  exec_body (.writeParameter ops) 0x23 ops s rfl hf hp

theorem exec_clearCounters {s : State} (hp : PortFree s) :
    exec (.clearCounters []) s = .next (execute [0x24, 0] (cmdClearCounters []) s) :=
  exec_body (.clearCounters []) 0x24 [] s rfl rfl hp

theorem cmdWriteParameter_of_le {index : Byte} (hi lo : Byte) (s : State) (h : index.toNat ≤ 15) :
    cmdWriteParameter [index, hi, lo] s = okPlain (storeWord index (mkWord hi lo) s) := if_pos h

theorem cmdWriteParameter_of_gt {index : Byte} (hi lo : Byte) (s : State) (h : 15 < index.toNat) :
    cmdWriteParameter [index, hi, lo] s = refuse .badOperand s := if_neg (Nat.not_le.2 h)

theorem cmdClearCounters_nil (s : State) : cmdClearCounters [] s = okPlain (setCounters Counters.zero s) := rfl

/-- Settles O18: each outcome is the body's answer, placed as the reply. -/
theorem parameterCommands : Obligations.ParameterCommands := by
  intro index hi lo s hp
  rw [exec_writeParameter rfl hp, exec_clearCounters hp]
  refine ⟨fun hindex => congrArg _ ?write, fun hindex => congrArg _ ?writeRefused, congrArg _ ?clear⟩
  case write => exact execute_reply _ _ s _ .ok [] hp (cmdWriteParameter_of_le hi lo _ hindex) rfl
  case writeRefused => exact execute_refuse _ _ s .badOperand hp (cmdWriteParameter_of_gt hi lo _ hindex)
  case clear => exact execute_reply _ _ s _ .ok [] hp (cmdClearCounters_nil _) rfl

/-! ### TAKE-EVENT and the signs of a held record (R155, R192) -/

theorem exec_takeEvent {s : State} (hp : PortFree s) :
    exec (.takeEvent []) s = .next (execute [0x25, 0] (cmdTakeEvent []) s) :=
  exec_body (.takeEvent []) 0x25 [] s rfl rfl hp

theorem cmdTakeEvent_of_empty {s : State} (h : s.evq = []) : cmdTakeEvent [] s = okPlain s := by
  simp only [cmdTakeEvent, h]

theorem cmdTakeEvent_of_cons {s : State} {r : EventRec} {rest : List EventRec} (h : s.evq = r :: rest) :
    cmdTakeEvent [] s = okWith (recordBytes r) (setEvq rest s) := by
  simp only [cmdTakeEvent, h]

theorem hatn_eq_false_iff (s : State) : hatn s = false ↔ s.evq = [] := by
  simp [hatn]

theorem getElem_flagAt (b : Bool) (i : Nat) {j : Nat} (hj : j < 8) : (flagAt b i)[j] = (b && decide (i = j)) := by
  rw [← BitVec.getLsbD_eq_getElem]
  cases b
  · simp [flagAt]
  · simp only [flagAt, if_true, BitVec.getLsbD_ofNat, hj, Nat.testBit_two_pow, decide_true, Bool.true_and]

/-- The EVENT field of the status byte is the level of HATN (R155, R199). -/
theorem statusByte_event (s : State) : bitOf ((statusByte s).setWidth 16) 2 = hatn s := by
  simp [bitOf, statusByte, getElem_flagAt]

/-- Settles O20: the body's answer on an empty queue and on a held record; HATN and EVENT are read from the queue left. -/
theorem takeEventOldest : Obligations.TakeEventOldest := by
  intro s hp
  rw [exec_takeEvent hp]
  refine ⟨fun hempty => congrArg _ ?empty, fun r rest hq => ⟨_, congrArg _ ?taken, rfl, ?hatn, ?event⟩⟩
  case empty => exact execute_reply _ _ s (beginExecution _ s) .ok [] hp (cmdTakeEvent_of_empty hempty) rfl
  case taken => exact execute_reply _ _ s _ .ok (recordBytes r) hp (cmdTakeEvent_of_cons hq) rfl
  case hatn => exact hatn_eq_false_iff _
  case event =>
    rw [statusByte_event]
    exact hatn_eq_false_iff _

end Sys2Proof.Machine

/-! PROOF. The records and notices that the tables' updates leave (R71, R73, R141), in the words of the statements, and what leaving
SYNCED does to the line unit and the query unit (R33, R142). -/

namespace Sys2Proof.Machine

/-! ### Records in a row (R188, R189) -/

theorem recorded_refl (s : State) : Recorded [] s s := ⟨rfl, rfl⟩

/-- One posting, with the round number held named by another state. -/
theorem recorded_post_round (k : EventKind) (a : Byte) (d : Word) {s : State} {r : Byte} (h : s.line.round = r) :
    Recorded [⟨k, a, d, r⟩] s (post k a d s) := h ▸ recorded_post k a d s

theorem Recorded.of_start {a : List EventRec} {s m t : State} (k : Recorded a m t) (hq : m.evq = s.evq) (hp : m.par = s.par) :
    Recorded a s t := k.congr ⟨hq.symm, hp.symm⟩ ⟨rfl, rfl⟩

theorem Recorded.to_end {a : List EventRec} {s m t : State} (h : Recorded a s m) (hq : t.evq = m.evq) (hp : t.par = m.par) :
    Recorded a s t := h.congr ⟨rfl, rfl⟩ ⟨hq, hp⟩

/-- A posting after the records so far. -/
theorem Recorded.post {a : List EventRec} {s m : State} (h : Recorded a s m) (k : EventKind) (x : Byte) (d : Word) {r : Byte}
    (hr : m.line.round = r) : Recorded (a ++ [⟨k, x, d, r⟩]) s (post k x d m) := h.append (recorded_post_round k x d hr)

/-- The STATE record after the records so far (R42). -/
theorem Recorded.postState {a : List EventRec} {s m : State} (h : Recorded a s m) (c : StateCause) {st : StationState}
    {f : FaultCause} {r : Byte} (hst : m.ctl.state = st) (hf : m.ctl.faultCause = f) (hr : m.line.round = r) :
    Recorded (a ++ [⟨.state, stateCode st, mkWord (causeCode c) (faultCode f), r⟩]) s (postState c m) := by
  subst hst hf
  exact h.post _ _ _ hr

/-! ### ENTRY records and the notification of an update (R71, R73) -/

/-- The ENTRY record of one place, if its update posts one. -/
def entryRecord (g : Entry → Entry) (round : Byte) (i : Nat) : Option Entry → Option EventRec
  | some e =>
    if e.report = true ∧ ((g e).status ≠ e.status ∨ (g e).notOffered ≠ e.notOffered) then
      some ⟨.entry, BitVec.ofNat 8 i, entryDetail e (g e), round⟩
    else none
  | none => none

theorem entryRecords_eq (g : Entry → Entry) (round : Byte) (m : List (Option Entry)) :
    entryRecords g round m = (List.range m.length).filterMap fun i => entryRecord g round i (entryAt m i) := by
  unfold entryRecords
  congr 1

theorem entryAt_cons_zero (o : Option Entry) (m : List (Option Entry)) : entryAt (o :: m) 0 = o := rfl

theorem entryAt_cons_succ (o : Option Entry) (m : List (Option Entry)) (i : Nat) : entryAt (o :: m) (i + 1) = entryAt m i := rfl

/-- The update of a place posts its record, if there is one. -/
theorem postEntry_recorded (g : Entry → Entry) (hg : ∀ e, (g e).report = e.report) (i : Nat) (e : Entry) (s : State) :
    Recorded (entryRecord g s.line.round i (some e)).toList s (postEntry i e (g e) s) := by
  by_cases h : e.report = true ∧ ((g e).status ≠ e.status ∨ (g e).notOffered ≠ e.notOffered)
  · have hpost := h
    rw [← hg e] at hpost
    rw [entryRecord, if_pos h, postEntry, if_pos hpost]
    exact recorded_post _ _ _ s
  · have hpost := h
    rw [← hg e] at hpost
    rw [entryRecord, if_neg h, postEntry, if_neg hpost]
    exact recorded_refl s

theorem postEntries_recorded (g : Entry → Entry) (hg : ∀ e, (g e).report = e.report) (i : Nat) (l : List (Option Entry))
    (s : State) :
    Recorded ((List.range l.length).filterMap fun j => entryRecord g s.line.round (i + j) (entryAt l j)) s
      (postEntries g i l s) := by
  induction l generalizing i s with
  | nil => exact recorded_refl s
  | cons o rest ih =>
    have hshift : ((List.range (o :: rest).length).filterMap fun j => entryRecord g s.line.round (i + j) (entryAt (o :: rest) j)) =
        (entryRecord g s.line.round i o).toList ++
          (List.range rest.length).filterMap fun j => entryRecord g s.line.round (i + 1 + j) (entryAt rest j) := by
      rw [List.length_cons, List.range_succ_eq_map, List.filterMap_cons, List.filterMap_map]
      simp only [entryAt_cons_zero, Nat.add_zero, Function.comp_def, Nat.succ_eq_add_one, entryAt_cons_succ, ← Nat.add_assoc,
        Nat.add_right_comm i 1]
      cases entryRecord g s.line.round i o <;> rfl
    rw [hshift]
    cases o with
    | none => exact ih (i + 1) s
    | some e =>
      have hround : (postEntry i e (g e) s).line.round = s.line.round := by simp
      have hrest := ih (i + 1) (postEntry i e (g e) s)
      rw [hround] at hrest
      exact (postEntry_recorded g hg i e s).append hrest

/-- An update of the table posts the ENTRY records of the places it changes, in place order (R73). -/
theorem updateMirror_recorded (g : Entry → Entry) (p : Entry → Bool) (hg : ∀ e, (g e).report = e.report) (s : State) :
    Recorded (entryRecords g s.line.round s.mir) s (updateMirror g p s) := by
  have hposted := postEntries_recorded g hg 0 s.mir (setMir (s.mir.map (Option.map g)) s)
  simp only [Nat.zero_add, setMir_line] at hposted
  rw [entryRecords_eq]
  simp only [updateMirror]
  split
  · exact hposted.of_start rfl rfl
  · exact (hposted.of_start rfl rfl).to_end (by simp) (by simp)

theorem placesWhere_eq (p : Entry → Bool) (i : Nat) (m : List (Option Entry)) :
    placesWhere p i m = ((List.range m.length).filter fun j => (entryAt m j).any p).map (i + ·) := by
  induction m generalizing i with
  | nil => rfl
  | cons o rest ih =>
    rw [List.length_cons, List.range_succ_eq_map, List.filter_cons, List.filter_map]
    cases o with
    | none => simp [placesWhere, ih, entryAt_cons_zero, Function.comp_def, entryAt_cons_succ, ← Nat.add_assoc, Nat.add_right_comm i 1]
    | some e =>
      by_cases hp : p e = true <;>
        simp [placesWhere, ih, entryAt_cons_zero, hp, Function.comp_def, entryAt_cons_succ, ← Nat.add_assoc,
          Nat.add_right_comm i 1]

/-- Outside CONFIG an update of the table gives the one notification that names the entries with `p` (R71). -/
theorem updateMirror_cond (g : Entry → Entry) (p : Entry → Bool) {s : State} (h : s.ctl.state ≠ .config) :
    (updateMirror g p s).cond = { s.cond with notices := s.cond.notices ++ entryNotice p s.mir } := by
  have hplaces : placesWhere p 0 s.mir = (List.range s.mir.length).filter fun i => (entryAt s.mir i).any p := by
    simp [placesWhere_eq]
  simp only [updateMirror, hplaces, entryNotice, List.isEmpty_iff]
  split
  · simp
  · simp [notify_cond, h]

/-! ### QUERY records (R141) -/

theorem postQueries_recorded (p : Query → Bool) (o : Outcome) (l : List Query) (s : State) :
    Recorded (queryRecords p o s.line.round l) s (postQueries p o l s) := by
  induction l generalizing s with
  | nil => exact recorded_refl s
  | cons q rest ih =>
    simp only [postQueries, queryRecords, List.filter_cons]
    split
    · have hrest := ih (postQuery q o s)
      rw [(postQuery_frame q o s).2.1] at hrest
      exact (recorded_post .query (q.tag.setWidth 8) (mkWord (outcomeCode o) q.target) s).append hrest
    · exact ih s

theorem finishWhere_recorded (p : Query → Bool) (o : Outcome) (s : State) :
    Recorded (queryRecords p o s.line.round s.qry.queries) s (finishWhere p o s) :=
  (postQueries_recorded p o s.qry.queries (setQueries _ s)).of_start rfl rfl

/-! ### Leaving SYNCED (R33) -/

theorem finishQuery_aborted (q : Query) :
    (if decide (q.state ≠ .done) = true then finishQuery .aborted 0 q else q) = abortedQuery q := by
  by_cases h : q.state = .done <;> simp [abortedQuery, finishQuery, h]

/-- What the notice of leaving SYNCED changes: the query unit, the slot following, the counter and the heard mark. -/
@[simp] theorem leaveSynced_frame (s : State) :
    (leaveSynced s).pending = s.pending ∧ (leaveSynced s).pts = s.pts ∧ (leaveSynced s).mir = s.mir ∧
    (leaveSynced s).cond = s.cond ∧ (leaveSynced s).out = s.out ∧ (leaveSynced s).port = s.port ∧
    (leaveSynced s).time = s.time ∧ (leaveSynced s).par.host = s.par.host ∧ (leaveSynced s).par.permit = s.par.permit ∧
    (leaveSynced s).ctl = { s.ctl with loneCounter := 0, heard := false } ∧
    (leaveSynced s).qry = { s.qry with queries := s.qry.queries.map abortedQuery, answers := [] } := by
  simp only [leaveSynced, setCtl_pending, setLine_pending, setCtl_pts, setLine_pts, setCtl_mir, setLine_mir, setCtl_cond,
    setLine_cond, setCtl_out, setLine_out, setCtl_port, setLine_port, setCtl_time, setLine_time, setCtl_par, setLine_par,
    setCtl_ctl, setCtl_qry, setLine_qry, abortQueries_frame, finishQuery_aborted, and_self]

theorem leaveSynced_line (s : State) :
    (leaveSynced s).line =
      { (if s.line.tx = .gap then clearTx .idle s.line else s.line) with
        slot := none, slotTimer := none, contention := none, pictures := [] } := by
  simp [leaveSynced]

theorem leaveIfSynced_of_synced {s : State} (h : s.ctl.state = .synced) : leaveIfSynced s = leaveSynced s := if_pos h

theorem leaveIfSynced_of_ne {s : State} (h : s.ctl.state ≠ .synced) : leaveIfSynced s = s := if_neg h

@[simp] theorem leaveIfSynced_frame (s : State) :
    (leaveIfSynced s).pending = s.pending ∧ (leaveIfSynced s).pts = s.pts ∧ (leaveIfSynced s).mir = s.mir ∧
    (leaveIfSynced s).cond = s.cond ∧ (leaveIfSynced s).out = s.out ∧ (leaveIfSynced s).port = s.port ∧
    (leaveIfSynced s).time = s.time ∧ (leaveIfSynced s).par.host = s.par.host ∧
    (leaveIfSynced s).par.permit = s.par.permit ∧ (leaveIfSynced s).line = lineAfterLeaving s ∧
    (leaveIfSynced s).qry = qryAfterLeaving s ∧
    (leaveIfSynced s).ctl = { s.ctl with
      loneCounter := if s.ctl.state = .synced then 0 else s.ctl.loneCounter
      heard := if s.ctl.state = .synced then false else s.ctl.heard } := by
  by_cases h : s.ctl.state = .synced
  · simp only [leaveIfSynced_of_synced h, leaveSynced_frame, leaveSynced_line, lineAfterLeaving, qryAfterLeaving, h, if_true, and_true,
      true_and]
    split <;> rfl
  · simp only [leaveIfSynced_of_ne h, lineAfterLeaving, qryAfterLeaving, h, if_false, and_self]

theorem lineAfterLeaving_round (s : State) : (lineAfterLeaving s).round = s.line.round := by
  simp only [lineAfterLeaving]
  split
  · split <;> rfl
  · rfl

theorem leaveSynced_recorded (s : State) :
    Recorded (queryRecords (fun q => decide (q.state ≠ .done)) .aborted s.line.round s.qry.queries) s (leaveSynced s) :=
  (finishWhere_recorded (fun q => decide (q.state ≠ .done)) .aborted s).to_end rfl rfl

/-- Leaving SYNCED posts the QUERY records of the aborted queries (R141, R142). -/
theorem leaveIfSynced_recorded (s : State) : Recorded (leavingRecords s) s (leaveIfSynced s) := by
  unfold leavingRecords leaveIfSynced
  split
  · exact leaveSynced_recorded s
  · exact recorded_refl s

end Sys2Proof.Machine

/-! PROOF. Points, pins and the drive mode in the words of the statements (R40, R44, R48, R50, R56, R112, R113): what a change of a
point leaves whole, and how both blocks take a drive mode. -/

namespace Sys2Proof.Machine

/-! ### A change of a point (R44, R56) -/

/-- Writing the record a place already reads changes nothing. -/
theorem points_set_pointAt (s : State) (i : Nat) : s.pts.points.set i (pointAt s i) = s.pts.points := by
  apply List.ext_getElem?
  intro j
  rw [List.getElem?_set]
  split
  · rename_i hij
    subst hij
    by_cases hi : i < s.pts.points.length
    · simp [pointAt, hi]
    · simp [hi]
  · rfl

theorem changePoint_pts (i : Nat) (p : Point) (n : Notice) (s : State) :
    (changePoint i p n s).pts = { s.pts with points := s.pts.points.set i p } := by
  unfold changePoint
  split
  · rename_i h; rw [← h, points_set_pointAt]
  · simp

theorem changePoint_cond (i : Nat) (p : Point) (n : Notice) (s : State) :
    (changePoint i p n s).cond = { s.cond with
      notices := if pointAt s i = p ∨ s.ctl.state = .config then s.cond.notices else s.cond.notices ++ [n] } := by
  unfold changePoint
  by_cases h : pointAt s i = p
  · simp [h]
  · by_cases hc : s.ctl.state = .config <;> simp [h, hc, notify_cond]

/-! ### Setting the pins (R48, R105) -/

/-- The pins with point 1 following: the whole effect on the points and the notices, given that point 1 showed the pins. -/
theorem setPins_pts {s : State} (h1 : pointAt s 1 = ⟨s.out.pins, .good⟩) :
    (setPins s).pts = { s.pts with points := s.pts.points.set 1 ⟨shownPins s.out, .good⟩ } := by
  simp only [setPins]
  split
  · rename_i h; rw [h, ← h1, points_set_pointAt]
  · rw [changePoint_pts]; rfl

theorem setPins_cond {s : State} (h1 : pointAt s 1 = ⟨s.out.pins, .good⟩) :
    (setPins s).cond = { s.cond with
      notices := if shownPins s.out = s.out.pins ∨ s.ctl.state = .config then s.cond.notices
        else s.cond.notices ++ [.point 1] } := by
  simp only [setPins]
  by_cases h : shownPins s.out = s.out.pins
  · simp [h]
  · have hne : pointAt s 1 ≠ ⟨shownPins s.out, .good⟩ := by
      rw [h1]; exact fun heq => h (Point.mk.inj heq).1.symm
    have hne' : pointAt (setOut { s.out with pins := shownPins s.out } s) 1 ≠ ⟨shownPins s.out, .good⟩ := hne
    simp [h, changePoint_cond, hne']

/-- Whatever point 1 showed before, setting the pins gives at most notices. -/
theorem setPins_cond_notices (s : State) :
    (setPins s).cond = { s.cond with notices := (setPins s).cond.notices } ∧ s.cond.notices <+: (setPins s).cond.notices := by
  simp only [setPins]
  split
  · exact ⟨rfl, List.prefix_refl _⟩
  · rw [changePoint_cond]
    refine ⟨rfl, ?_⟩
    dsimp only
    split
    · exact List.prefix_refl _
    · exact List.prefix_append _ _

theorem setPins_pts_points (s : State) : (setPins s).pts = { s.pts with points := (setPins s).pts.points } := by
  simp only [setPins]
  split
  · rfl
  · rw [changePoint_pts]; rfl

/-! ### No more than notices and a drive mode -/

theorem DriveOnly.refl (s : State) : DriveOnly s s := ⟨rfl, rfl, fun _ _ _ => rfl, rfl, List.prefix_refl _⟩

theorem DriveOnly.trans {a b c : State} (h : DriveOnly a b) (k : DriveOnly b c) : DriveOnly a c where
  out := by rw [k.out, h.out]
  pts := by rw [k.pts, h.pts]
  points p h1 h2 := (k.points p h1 h2).trans (h.points p h1 h2)
  cond := ⟨by rw [k.cond.1, h.cond.1], h.cond.2.trans k.cond.2⟩

theorem DriveOnly.of_eq {s t : State} (ho : t.out = s.out) (hp : t.pts = s.pts) (hc : t.cond = s.cond) : DriveOnly s t where
  out := by rw [ho]
  pts := by rw [hp]
  points p _ _ := pointAt_congr (by rw [hp]) p
  cond := by rw [hc]; exact ⟨rfl, List.prefix_refl _⟩

/-- A step that touches none of the three units may stand before. -/
theorem DriveOnly.of_start {s m t : State} (k : DriveOnly m t) (ho : m.out = s.out) (hp : m.pts = s.pts)
    (hc : m.cond = s.cond) : DriveOnly s t := (DriveOnly.of_eq ho hp hc).trans k

/-- A step that touches none of the three units may stand behind. -/
theorem DriveOnly.to_end {s m t : State} (h : DriveOnly s m) (ho : t.out = m.out) (hp : t.pts = m.pts)
    (hc : t.cond = m.cond) : DriveOnly s t := h.trans (.of_eq ho hp hc)

theorem driveOnly_post (k : EventKind) (a : Byte) (d : Word) (s : State) : DriveOnly s (post k a d s) :=
  .of_eq (by simp) (by simp) (by simp)

theorem driveOnly_changePoint {i : Nat} (hi : i = 1 ∨ i = 2) (p : Point) (n : Notice) (s : State) :
    DriveOnly s (changePoint i p n s) where
  out := by simp
  pts := by rw [changePoint_pts]
  points j h1 h2 := by
    have hij : i ≠ j := by omega
    simp [pointAt, changePoint_pts, hij]
  cond := by
    rw [changePoint_cond]
    refine ⟨rfl, ?_⟩
    dsimp only
    split
    · exact List.prefix_refl _
    · exact List.prefix_append _ _

theorem driveOnly_setPins (s : State) : DriveOnly s (setPins s) where
  out := by simp
  pts := by rw [setPins_pts_points]
  points j h1 _ := pointAt_setPins_ne s j h1
  cond := setPins_cond_notices s

theorem driveOnly_giveDriveMode (m : DriveMode) (s : State) : DriveOnly s (giveDriveMode m s) := by
  simp only [giveDriveMode]
  refine DriveOnly.trans ?_ (driveOnly_changePoint (.inr rfl) _ _ _)
  have hpins := driveOnly_setPins (setCtl { s.ctl with driveMode := m } (setOut { s.out with mode := outModeOf m } s))
  exact ⟨hpins.out, by rw [setPts_pts, hpins.pts]; rfl, hpins.points, hpins.cond⟩

theorem driveOnly_updateDriveMode (s : State) : DriveOnly s (updateDriveMode s) := by
  unfold updateDriveMode
  dsimp only
  split
  · exact .refl s
  · exact driveOnly_giveDriveMode _ s

theorem driveOnly_setHolds (h : HoldReasons) (s : State) : DriveOnly s (setHolds h s) := by
  unfold setHolds
  split
  · exact .refl s
  · have hmode := driveOnly_updateDriveMode (setCtl { s.ctl with holds := h } s)
    exact (hmode.of_start (s := s) rfl rfl rfl).trans (driveOnly_post _ _ _ _)

theorem driveOnly_updateMirror (g : Entry → Entry) (p : Entry → Bool) (s : State) : DriveOnly s (updateMirror g p s) where
  out := by simp
  pts := by simp
  points _ _ _ := pointAt_congr (by simp) _
  cond := by
    simp only [updateMirror]
    split
    · simp
    · rw [notify_cond]
      refine ⟨by simp, ?_⟩
      dsimp only
      split
      · simp
      · simp

/-! ### The drive mode taken (R40, R113) -/

/-- A step that touches neither the controller nor the three units may stand behind. -/
theorem DriveTaken.to_end {named : List Notice} {s m t : State} (h : DriveTaken named s m) (hctl : t.ctl = m.ctl)
    (ho : t.out = m.out) (hp : t.pts = m.pts) (hc : t.cond = m.cond) : DriveTaken named s t where
  mode := by rw [hctl]; exact h.mode
  out := by rw [hctl, ho]; exact h.out
  pts := by rw [hctl, ho, hp]; exact h.pts
  cond := by rw [hctl, hc, h.cond, pinNotice, pinNotice, ho]

/-- The pins a drive mode shows (R112). -/
theorem shownPins_outMode (o : OutUnit) (m : DriveMode) :
    shownPins { o with mode := outModeOf m } = if m = .drive then ruleLevels o else safeLevels o.active := by
  cases m <;> rfl

theorem pinsSound_shown {s : State} (h : PinsSound s) (hr : Running s) :
    s.out.mode = outModeOf s.ctl.driveMode ∧
      s.out.pins = if s.ctl.driveMode = .drive then ruleLevels s.out else safeLevels s.out.active := by
  obtain ⟨-, -, -, hmode, hpins, -, -, -⟩ := h
  rw [if_neg hr] at hmode
  refine ⟨hmode, ?_⟩
  rw [hpins, ← shownPins_outMode, ← hmode]

/-- Giving a drive mode sets the pins of a station that differs by the mode only, then point 2's quality. -/
theorem giveDriveMode_eq (mode : DriveMode) (s : State) : ∃ g : State,
    giveDriveMode mode s = changePoint 2 ⟨(pointAt s 2).value, qualityOf mode⟩ .point2Quality
      (setPts { (setPins g).pts with driveMode := mode } (setPins g)) ∧
    g.out = { s.out with mode := outModeOf mode } ∧ g.pts = s.pts ∧ g.cond = s.cond ∧ g.ctl.state = s.ctl.state := by
  refine ⟨setCtl { s.ctl with driveMode := mode } (setOut { s.out with mode := outModeOf mode } s), ?_, rfl, rfl, rfl, rfl⟩
  simp only [giveDriveMode]
  rw [pointAt_setPins_ne _ 2 (by omega)]
  rfl

theorem giveDriveMode_pts {mode : DriveMode} {s : State} (h1 : pointAt s 1 = ⟨s.out.pins, .good⟩) :
    (giveDriveMode mode s).pts = { s.pts with
      driveMode := mode
      points := (s.pts.points.set 1 ⟨shownPins { s.out with mode := outModeOf mode }, .good⟩).set 2
        ⟨(pointAt s 2).value, qualityOf mode⟩ } := by
  obtain ⟨g, hgive, hout, hpts, -, -⟩ := giveDriveMode_eq mode s
  have hpoint1 : pointAt g 1 = ⟨g.out.pins, .good⟩ := by
    rw [pointAt_congr (congrArg _ hpts), h1, hout]
  rw [hgive, changePoint_pts, setPts_pts, setPins_pts hpoint1, hpts, hout]

theorem giveDriveMode_cond {mode : DriveMode} {s : State} (hr : s.ctl.state ≠ .config)
    (h1 : pointAt s 1 = ⟨s.out.pins, .good⟩) :
    (giveDriveMode mode s).cond = { s.cond with
      notices := s.cond.notices ++
        (if shownPins { s.out with mode := outModeOf mode } = s.out.pins then [] else [.point 1]) ++
        if (pointAt s 2).quality = qualityOf mode then [] else [.point2Quality] } := by
  obtain ⟨g, hgive, hout, hpts, hcond, hstate⟩ := giveDriveMode_eq mode s
  have hpoint1 : pointAt g 1 = ⟨g.out.pins, .good⟩ := by
    rw [pointAt_congr (congrArg _ hpts), h1, hout]
  have hpoint2 : pointAt (setPts { (setPins g).pts with driveMode := mode } (setPins g)) 2 = pointAt s 2 :=
    (pointAt_setPins_ne g 2 (by omega)).trans (pointAt_congr (congrArg _ hpts) 2)
  have hpins : g.out.pins = s.out.pins := by rw [hout]
  have hsame : pointAt s 2 = ⟨(pointAt s 2).value, qualityOf mode⟩ ↔ (pointAt s 2).quality = qualityOf mode :=
    ⟨fun h => by rw [h], fun h => by rw [← h]⟩
  have hrun : ¬ g.ctl.state = .config := by rw [hstate]; exact hr
  rw [hgive, changePoint_cond, hpoint2, setPts_cond, setPins_cond hpoint1, hcond, ← hout, hpins]
  simp only [setPts_ctl, setPins_frame, hrun, or_false, hsame]
  split <;> split <;> simp

/-- Where only the controller, the mirror table's notices and other blocks have moved since a sound station, deriving the drive
mode again is the drive mode taken. -/
theorem updateDriveMode_taken {named : List Notice} {s m : State} (hs : PinsSound s) (hr : Running s)
    (hrun : m.ctl.state ≠ .config) (hout : m.out = s.out) (hpts : m.pts = s.pts)
    (hcond : m.cond = { s.cond with notices := s.cond.notices ++ named }) (hmode : m.ctl.driveMode = s.ctl.driveMode) :
    DriveTaken named s (updateDriveMode m) := by
  obtain ⟨hshownMode, hshownPins⟩ := pinsSound_shown hs hr
  obtain ⟨-, -, hptsMode, -, -, -, hpoint1, hpoint2⟩ := hs
  have hp1 : s.pts.points.set 1 ⟨s.out.pins, .good⟩ = s.pts.points := by rw [← hpoint1, points_set_pointAt]
  unfold updateDriveMode
  dsimp only
  split
  case isTrue hsame =>
    have hp2 : s.pts.points.set 2 ⟨(pointAt s 2).value, qualityOf s.ctl.driveMode⟩ = s.pts.points := by
      rw [← hpoint2]; exact points_set_pointAt s 2
    exact {
      mode := hsame.symm
      out := by rw [hout, hmode, ← hshownMode, ← hshownPins]
      pts := by rw [hpts, hout, hmode, hp1, hp2, ← hptsMode]
      cond := by simp [hcond, pinNotice, hout, hmode, hpoint2] }
  case isFalse =>
    generalize hderive : deriveMode m.ctl.state m.ctl.holds = mode
    have hctl : (giveDriveMode mode m).ctl = { m.ctl with driveMode := mode } := by simp
    have hgivenOut : (giveDriveMode mode m).out = { s.out with
        mode := outModeOf mode, pins := if mode = .drive then ruleLevels s.out else safeLevels s.out.active } := by
      rw [← shownPins_outMode, ← hout]; simp
    exact {
      mode := by rw [hctl]; exact hderive.symm
      out := by rw [hctl]; exact hgivenOut
      pts := by
        rw [giveDriveMode_pts (by rw [pointAt_congr (congrArg _ hpts), hpoint1, hout]), hctl, hgivenOut, hpts, hout,
          shownPins_outMode, pointAt_congr (congrArg _ hpts)]
      cond := by
        rw [giveDriveMode_cond hrun (by rw [pointAt_congr (congrArg _ hpts), hpoint1, hout]), hctl, hcond, hout,
          shownPins_outMode, pointAt_congr (congrArg _ hpts), pinNotice, hgivenOut] }

end Sys2Proof.Machine

/-! PROOF. RECONFIGURE as it is made (R36) and the start by a successful COMMIT up to the initial evaluation (R175): what each leaves in
every block, from any state. -/

namespace Sys2Proof.Machine

/-! ### RECONFIGURE (R36) -/

theorem setPins_cond_config {s : State} (h : s.ctl.state = .config) : (setPins s).cond = s.cond := by
  rw [(setPins_cond_notices s).1, setPins_notices_config s h]

theorem parkOutputs_cond_config {s : State} (h : s.ctl.state = .config) : (parkOutputs s).cond = s.cond :=
  setPins_cond_config (s := setOut { s.out with parked := safeLevels s.out.active, mode := .config } s) h

theorem qryAfterLeaving_tagCounter (s : State) : (qryAfterLeaving s).tagCounter = s.qry.tagCounter := by
  unfold qryAfterLeaving; split <;> rfl

theorem clearResults_updateMirror (g : Entry → Entry) (p : Entry → Bool) (s : State) :
    clearResults (updateMirror g p s).cond = clearResults s.cond := by
  simp [clearResults]

/-- The state of RECONFIGURE before its records of the change and of the hold reasons: the blocks are cleared and the pins parked. -/
def reconfigureCleared (s : State) : State :=
  let s1 := clearMirror (leaveIfSynced s)
  clearPoints .held (parkOutputs (controlForConfig (setLine (lineOff s1.line) (setCond (clearResults s1.cond)
    (setQry { s1.qry with queries := [], answers := [] } (setPts { s1.pts with driveMode := .safe } s1))))))

theorem reconfigureNow_eq (s : State) :
    reconfigureNow s =
      if s.ctl.holds = HoldReasons.empty then postState .reconfigure (reconfigureCleared s)
      else post .hold (holdByte HoldReasons.empty) (mkWord 0 (holdByte s.ctl.holds))
        (postState .reconfigure (reconfigureCleared s)) := by
  have hholds : (clearMirror (leaveIfSynced s)).ctl.holds = s.ctl.holds := by simp
  simp only [reconfigureNow, hholds]
  rfl

@[simp] theorem reconfigureCleared_frame (s : State) :
    (reconfigureCleared s).pending = s.pending ∧ (reconfigureCleared s).time = s.time ∧
    (reconfigureCleared s).port = s.port ∧ (reconfigureCleared s).par.host = s.par.host ∧
    (reconfigureCleared s).par.permit = s.par.permit ∧
    (reconfigureCleared s).mir = s.mir.map (Option.map restartedEntry) ∧
    (reconfigureCleared s).qry = { s.qry with queries := [], answers := [] } ∧
    (reconfigureCleared s).cond = clearResults s.cond ∧
    (reconfigureCleared s).out = startRules s.out.active
      { s.out with parked := safeLevels s.out.active, mode := .config, pins := safeLevels s.out.active } ∧
    (reconfigureCleared s).line = lineOff (lineAfterLeaving s) ∧
    (reconfigureCleared s).ctl = { s.ctl with
      state := .config, faultCause := .none, holds := HoldReasons.empty, loneCounter := 0, heard := false, ageTimer := none,
      driveMode := .safe } ∧
    (reconfigureCleared s).evq = (clearMirror (leaveIfSynced s)).evq ∧
    (reconfigureCleared s).par = (clearMirror (leaveIfSynced s)).par ∧
    (reconfigureCleared s).pts.raw = s.pts.raw ∧ (reconfigureCleared s).pts.filtered = s.pts.filtered ∧
    (reconfigureCleared s).pts.filterTimers = s.pts.filterTimers ∧
    (reconfigureCleared s).pts.filterTime = s.pts.filterTime ∧ (reconfigureCleared s).pts.invert = s.pts.invert ∧
    (reconfigureCleared s).pts.publish = s.pts.publish ∧ (reconfigureCleared s).pts.driveMode = .safe := by
  simp only [reconfigureCleared, clearPoints_pending, clearPoints_time, clearPoints_port, clearPoints_par, clearPoints_mir,
    clearPoints_qry, clearPoints_cond, clearPoints_out, clearPoints_line, clearPoints_ctl, clearPoints_evq]
  rw [parkOutputs_cond_config rfl]
  simp [clearResults_updateMirror, qryAfterLeaving_tagCounter]

/-- Every block but the points after RECONFIGURE (R36, R75, R101, R120, R143). -/
@[simp] theorem reconfigureNow_frame (s : State) :
    (reconfigureNow s).pending = s.pending ∧ (reconfigureNow s).time = s.time ∧ (reconfigureNow s).port = s.port ∧
    (reconfigureNow s).par.host = s.par.host ∧ (reconfigureNow s).par.permit = s.par.permit ∧
    (reconfigureNow s).mir = s.mir.map (Option.map restartedEntry) ∧
    (reconfigureNow s).qry = { s.qry with queries := [], answers := [] } ∧
    (reconfigureNow s).cond = clearResults s.cond ∧
    (reconfigureNow s).out = startRules s.out.active
      { s.out with parked := safeLevels s.out.active, mode := .config, pins := safeLevels s.out.active } ∧
    (reconfigureNow s).line = lineOff (lineAfterLeaving s) ∧
    (reconfigureNow s).ctl = { s.ctl with
      state := .config, faultCause := .none, holds := HoldReasons.empty, loneCounter := 0, heard := false, ageTimer := none,
      driveMode := .safe } ∧
    (reconfigureNow s).pts = (reconfigureCleared s).pts ∧
    (reconfigureNow s).pts.raw = s.pts.raw ∧ (reconfigureNow s).pts.filtered = s.pts.filtered ∧
    (reconfigureNow s).pts.filterTimers = s.pts.filterTimers ∧
    (reconfigureNow s).pts.filterTime = s.pts.filterTime ∧ (reconfigureNow s).pts.invert = s.pts.invert ∧
    (reconfigureNow s).pts.publish = s.pts.publish ∧ (reconfigureNow s).pts.driveMode = .safe := by
  rw [reconfigureNow_eq]
  split <;> simp

theorem clearMirror_recorded (s : State) :
    Recorded (leavingRecords s ++ entryRecords restartedEntry s.line.round s.mir) s (clearMirror (leaveIfSynced s)) := by
  have hentries := updateMirror_recorded restartedEntry (fun _ => false) (fun _ => rfl) (leaveIfSynced s)
  simp only [leaveIfSynced_frame, lineAfterLeaving_round] at hentries
  exact (leaveIfSynced_recorded s).append hentries

/-- RECONFIGURE posts its QUERY and ENTRY records, the STATE record and, for a hold reason that was present, the HOLD record (R186). -/
theorem reconfigureNow_recorded (s : State) :
    Recorded (leavingRecords s ++ entryRecords restartedEntry s.line.round s.mir ++
      [⟨.state, 0, 0x0900, s.line.round⟩] ++ holdRecords s.ctl.holds HoldReasons.empty s.line.round) s (reconfigureNow s) := by
  have hround : (reconfigureCleared s).line.round = s.line.round := by
    simp [lineOff, lineAfterLeaving_round]
  have hcleared : Recorded (leavingRecords s ++ entryRecords restartedEntry s.line.round s.mir) s (reconfigureCleared s) :=
    (clearMirror_recorded s).to_end (by simp only [reconfigureCleared_frame]) (by simp only [reconfigureCleared_frame])
  have hstate : Recorded (leavingRecords s ++ entryRecords restartedEntry s.line.round s.mir ++
      [⟨.state, 0, 0x0900, s.line.round⟩]) s (postState .reconfigure (reconfigureCleared s)) :=
    hcleared.postState .reconfigure (st := .config) (f := .none) (by simp) (by simp) hround
  rw [reconfigureNow_eq, holdRecords]
  by_cases hempty : s.ctl.holds = HoldReasons.empty
  · rw [if_pos hempty, if_pos hempty.symm, List.append_nil]
    exact hstate
  · rw [if_neg hempty, if_neg (Ne.symm hempty)]
    exact hstate.post _ _ _ (by rw [(postState_frame _ _).2.1, hround])

end Sys2Proof.Machine

namespace Sys2Proof.Machine

/-! ### The start by COMMIT (R175) -/

/-- The station a successful COMMIT has started, before its initial evaluation (R175 steps 1 to 5). -/
def commitStart (s : State) : State := commitEnter (commitBlocks (commitSettings s))

theorem commitNow_eq (s : State) : commitNow s = pass 0xFFFF (commitStart s) := rfl

theorem bitOf_hostLines (rules : List (Option OutRule)) {i : Nat} (hi : i < 16) :
    bitOf (hostLines rules) i = isHostLine rules i := bitOf_wordOf _ _ hi

/-- A line with a condition source is no HOST line. -/
theorem isHostLine_eq_false_of_isKindLine {rules : List (Option OutRule)} {k : OutKind} {i : Nat}
    (h : isKindLine rules k i = true) : isHostLine rules i = false := by
  unfold isKindLine at h
  unfold isHostLine
  cases hr : ruleAt rules i with
  | none => simp [hr] at h
  | some r =>
    have hsource : r.source ≠ .host := by simp_all
    simp [hsource]

/-- At the start every pin in DRIVE shows its start level: host levels are 0 and INVERT lines have condition sources (R106, R121). -/
theorem ruleLevels_startRules (rules : List (Option OutRule)) (o : OutUnit) :
    ruleLevels (startRules rules o) = startLevels rules := by
  refine word_ext fun i hi => ?_
  have hstart : bitOf (startLevels rules) i = isKindLine rules .invert i := bitOf_wordOf _ _ hi
  have hzero : bitOf 0 i = false := bitOf_zero i
  simp only [ruleLevels, startRules, bitOf_or, bitOf_and, hzero, Bool.false_and, Bool.false_or, bitOf_not _ _ hi,
    bitOf_hostLines _ hi, hstart]
  cases hk : isKindLine rules .invert i with
  | false => rfl
  | true => simp [isHostLine_eq_false_of_isKindLine hk]

@[simp] theorem commitSettings_frame (s : State) :
    (commitSettings s).pending = s.pending ∧ (commitSettings s).line = s.line ∧ (commitSettings s).mir = s.mir ∧
    (commitSettings s).out = s.out ∧ (commitSettings s).qry = s.qry ∧ (commitSettings s).par = s.par ∧
    (commitSettings s).port = s.port ∧ (commitSettings s).evq = s.evq ∧ (commitSettings s).time = s.time ∧
    (commitSettings s).ctl = { s.ctl with signature := signatureOf s.ctl.edited, committed := some s.ctl.edited } ∧
    (commitSettings s).pts = { s.pts with
      filterTime := s.ctl.edited.filter, invert := s.ctl.edited.invert, publish := some s.ctl.edited.publish.toNat
      points := s.pts.points.set 0 ⟨s.pts.filtered ^^^ s.ctl.edited.invert, .good⟩ } ∧
    (commitSettings s).cond.defs = s.cond.defs ∧ clearResults (commitSettings s).cond = clearResults s.cond := by
  simp only [commitSettings]
  refine ⟨by simp, by simp, by simp, by simp, by simp, by simp, by simp, by simp, by simp, by simp, ?_, by simp, ?_⟩
  · rw [formPoint0, changePoint_pts]; rfl
  · simp [clearResults]

/-- The blocks at their start, still in CONFIG (R175 step 3). -/
@[simp] theorem commitBlocks_frame (s : State) :
    (commitBlocks s).pending = s.pending ∧ (commitBlocks s).line = s.line ∧
    (commitBlocks s).mir = s.mir.map (Option.map restartedEntry) ∧
    (commitBlocks s).out = startRules s.out.edited s.out ∧
    (commitBlocks s).qry = { s.qry with queries := [], answers := [] } ∧ (commitBlocks s).par = s.par ∧
    (commitBlocks s).port = s.port ∧ (commitBlocks s).evq = s.evq ∧ (commitBlocks s).time = s.time ∧
    (commitBlocks s).ctl = s.ctl ∧ (commitBlocks s).cond = clearResults s.cond ∧
    (commitBlocks s).pts = { s.pts with
      points := s.pts.points.take 2 ++ [⟨0, .held⟩] ++ List.replicate 5 ⟨0, .held⟩ } := by
  simp [commitBlocks]

/-- LISTEN entered from a started station (R175 steps 4 and 5). -/
@[simp] theorem commitEnter_frame (s : State) :
    (commitEnter s).pending = s.pending ∧ (commitEnter s).mir = s.mir ∧ (commitEnter s).qry = s.qry ∧
    (commitEnter s).port = s.port ∧ (commitEnter s).time = s.time ∧ (commitEnter s).par.host = s.par.host ∧
    (commitEnter s).par.permit = s.par.permit ∧
    (commitEnter s).line = { s.line with
      phase := .watch, slot := none, slotTimer := none, contention := none, coldStart := some s.coldStartWait
      collisionRun := 0, driverRun := 0, foreignCount := 0 } ∧
    (commitEnter s).ctl = { s.ctl with
      state := .listen, faultCause := .none, holds := HoldReasons.empty, loneCounter := 0, heard := false
      ageTimer := some s.agePeriod, driveMode := .drive } ∧
    (commitEnter s).out = { s.out with mode := .drive, pins := ruleLevels s.out } ∧
    (commitEnter s).cond.defs = s.cond.defs ∧ (commitEnter s).cond.raw = s.cond.raw ∧
    (commitEnter s).cond.sure = s.cond.sure ∧ (commitEnter s).cond.confirmed = s.cond.confirmed ∧
    (commitEnter s).cond.timers = s.cond.timers ∧
    (commitEnter s).pts.raw = s.pts.raw ∧ (commitEnter s).pts.filtered = s.pts.filtered ∧
    (commitEnter s).pts.filterTimers = s.pts.filterTimers ∧ (commitEnter s).pts.filterTime = s.pts.filterTime ∧
    (commitEnter s).pts.invert = s.pts.invert ∧ (commitEnter s).pts.publish = s.pts.publish ∧
    (commitEnter s).pts.driveMode = .drive ∧ (commitEnter s).pts.points.length = s.pts.points.length := by
  simp [commitEnter, outModeOf, shownPins, ruleLevels]
  exact ⟨rfl, rfl⟩

theorem commitStart_settings (s : State) :
    (commitBlocks (commitSettings s)).settings = s.ctl.edited := by
  simp [State.settings]

/-- Every block but the points and the notices at the start by COMMIT. -/
@[simp] theorem commitStart_frame (s : State) :
    (commitStart s).pending = s.pending ∧ (commitStart s).mir = s.mir.map (Option.map restartedEntry) ∧
    (commitStart s).qry = { s.qry with queries := [], answers := [] } ∧
    (commitStart s).port = s.port ∧ (commitStart s).time = s.time ∧ (commitStart s).par.host = s.par.host ∧
    (commitStart s).par.permit = s.par.permit ∧
    (commitStart s).line = { s.line with
      phase := .watch, slot := none, slotTimer := none, contention := none
      coldStart := some ((4 * s.ctl.edited.slots.toNat + 6 + 2 * s.ctl.edited.address.toNat) * Config.ctUnits s.ctl.edited.rate)
      collisionRun := 0, driverRun := 0, foreignCount := 0 } ∧
    (commitStart s).ctl = { s.ctl with
      state := .listen, faultCause := .none, holds := HoldReasons.empty, loneCounter := 0, heard := false
      ageTimer := some (40 * s.ctl.edited.slots.toNat * Config.ctUnits s.ctl.edited.rate), driveMode := .drive
      committed := some s.ctl.edited, signature := signatureOf s.ctl.edited } ∧
    (commitStart s).out = { startRules s.out.edited s.out with mode := .drive, pins := startLevels s.out.edited } ∧
    (commitStart s).cond.defs = s.cond.defs ∧ (commitStart s).cond.raw = 0 ∧ (commitStart s).cond.sure = 0 ∧
    (commitStart s).cond.confirmed = 0 ∧ (commitStart s).cond.timers = List.replicate 16 .idle ∧
    (commitStart s).pts.raw = s.pts.raw ∧ (commitStart s).pts.filtered = s.pts.filtered ∧
    (commitStart s).pts.filterTimers = s.pts.filterTimers ∧ (commitStart s).pts.filterTime = s.ctl.edited.filter ∧
    (commitStart s).pts.invert = s.ctl.edited.invert ∧ (commitStart s).pts.publish = some s.ctl.edited.publish.toNat ∧
    (commitStart s).pts.driveMode = .drive := by
  have hsettings := commitStart_settings s
  refine ⟨?_, ?_, ?_, ?_, ?_, ?_, ?_, ?_, ?_, ?_, ?_⟩ <;>
    simp [commitStart, State.coldStartWait, State.agePeriod, State.slots, State.address, State.ct, hsettings,
      ruleLevels_startRules, clearResults]

theorem commitStart_recorded (s : State) : Recorded [⟨.state, 1, 0x0100, s.line.round⟩] s (commitStart s) := by
  have hstart : Recorded [] s (giveDriveMode .drive (watchForListen 0 (controlForListen
      (setCtl { (commitBlocks (commitSettings s)).ctl with holds := HoldReasons.empty } (commitBlocks (commitSettings s)))))) :=
    (recorded_refl s).to_end (by simp) (by simp)
  exact hstart.postState .commit (st := .listen) (f := .none) (by simp) (by simp) (by simp)

/-- Setting the pins writes at most point 1 (R48). -/
theorem setPins_points (s : State) : ∃ p, (setPins s).pts.points = s.pts.points.set 1 p := by
  simp only [setPins]
  split
  · exact ⟨pointAt s 1, (points_set_pointAt s 1).symm⟩
  · exact ⟨_, by rw [changePoint_pts]; rfl⟩

/-- The station of COMMIT that takes the drive mode: LISTEN, every block started. -/
def commitListening (s : State) : State :=
  watchForListen 0 (controlForListen
    (setCtl { (commitBlocks (commitSettings s)).ctl with holds := HoldReasons.empty } (commitBlocks (commitSettings s))))

theorem commitStart_eq (s : State) : commitStart s = postState .commit (giveDriveMode .drive (commitListening s)) := rfl

theorem commitListening_frame (s : State) :
    (commitListening s).ctl.state = .listen ∧ (commitListening s).out = startRules s.out.edited s.out ∧
    (commitListening s).cond = clearResults s.cond ∧
    (commitListening s).pts.points = (s.pts.points.set 0 ⟨s.pts.filtered ^^^ s.ctl.edited.invert, .good⟩).take 2 ++
      [⟨0, .held⟩] ++ List.replicate 5 ⟨0, .held⟩ := by
  simp [commitListening]

theorem commitListening_points {s : State} (hl : s.pts.points.length = 8) :
    (commitListening s).pts.points = [⟨s.pts.filtered ^^^ s.ctl.edited.invert, .good⟩, pointAt s 1, ⟨0, .held⟩] ++
      List.replicate 5 ⟨0, .held⟩ := by
  rw [(commitListening_frame s).2.2.2]
  obtain ⟨p, q, rest, hpoints⟩ : ∃ p q rest, s.pts.points = p :: q :: rest := by
    match h : s.pts.points with
    | [] => simp [h] at hl
    | [_] => simp [h] at hl
    | p :: q :: rest => exact ⟨p, q, rest, rfl⟩
  simp [pointAt, hpoints]

/-- The points of the start: point 0 formed again, point 1 with the pins, point 2 at 0000h and GOOD, host points HELD (R47, R50,
R51). -/
theorem commitStart_points {s : State} (hl : s.pts.points.length = 8) :
    (commitStart s).pts.points = [⟨s.pts.filtered ^^^ s.ctl.edited.invert, .good⟩, pointAt (commitStart s) 1, ⟨0, .good⟩] ++
      List.replicate 5 ⟨0, .held⟩ := by
  obtain ⟨g, hgive, -, hpts, -, -⟩ := giveDriveMode_eq .drive (commitListening s)
  obtain ⟨p, hp⟩ := setPins_points g
  have hpoint2 : (pointAt (commitListening s) 2).value = 0 := by simp [pointAt, commitListening_points hl]
  have hpoints : (commitStart s).pts.points = ((commitListening s).pts.points.set 1 p).set 2 ⟨0, .good⟩ := by
    rw [commitStart_eq, (postState_frame _ _).2.2.2.1, hgive, changePoint_pts, hpoint2]
    simp [hp, hpts, qualityOf]
  rw [commitListening_points hl] at hpoints
  simp [pointAt, hpoints]

/-- Point 1 follows the pins at the start, and is announced before point 2 (R48, R56, log 29). -/
theorem commitStart_point1 {s : State} (hl : s.pts.points.length = 8) (h1 : pointAt s 1 = ⟨s.out.pins, .good⟩) :
    pointAt (commitStart s) 1 = ⟨(commitStart s).out.pins, .good⟩ ∧
      (commitStart s).cond.notices = pinNotice s (commitStart s) ++ [.point2Quality] := by
  obtain ⟨hstate, hout, hcond, -⟩ := commitListening_frame s
  have hpoints := commitListening_points hl
  have hpoint1 : pointAt (commitListening s) 1 = ⟨(commitListening s).out.pins, .good⟩ := by
    rw [hout]
    simpa [pointAt, hpoints, startRules] using h1
  have hpins : (commitStart s).out.pins = shownPins { (commitListening s).out with mode := outModeOf .drive } := by
    rw [commitStart_eq, (postState_frame _ _).2.2.2.2.2.2.1, (giveDriveMode_frame _ _).2.2.2.2.2.2.2.2.2.1]
  refine ⟨?_, ?_⟩
  · rw [commitStart_eq, pointAt_postState, pointAt_giveDriveMode _ _ 1 (by simp [hpoints]) hpoint1, ← hpins]
    rfl
  · have hpoint2 : (pointAt (commitListening s) 2).quality = .held := by simp [pointAt, hpoints]
    have hsame : (commitListening s).out.pins = s.out.pins := by rw [hout]; rfl
    rw [commitStart_eq, (postState_frame _ _).2.2.2.2.2.1, giveDriveMode_cond (by simp [hstate]) hpoint1, ← commitStart_eq,
      hcond, hpoint2, ← hpins, hsame]
    simp [clearResults, pinNotice, qualityOf]

end Sys2Proof.Machine

/-! PROOF. RESTART and RECONFIGURE as they are made, in the words of the statements (R35, R36). -/

namespace Sys2Proof.Machine

/-! ### Records and postings -/

theorem foldl_enqueue_posted (rs : List EventRec) (q : List EventRec) (h : ∀ r ∈ rs, r.kind ≠ .lost) :
    Posted q (rs.foldl enqueue q) := by
  induction rs generalizing q with
  | nil => exact .refl q
  | cons r rest ih =>
    exact (Posted.step r (h r (List.mem_cons_self ..)) (.refl q)).trans
      (ih _ fun x hx => h x (List.mem_cons_of_mem _ hx))

/-- Records of ordinary kinds are postings (R188). -/
theorem Recorded.posted {rs : List EventRec} {s t : State} (h : Recorded rs s t) (hk : ∀ r ∈ rs, r.kind ≠ .lost) :
    Posted s.evq t.evq := by
  rw [h.1]; exact foldl_enqueue_posted rs s.evq hk

theorem leavingRecords_kind {s : State} {r : EventRec} (h : r ∈ leavingRecords s) : r.kind ≠ .lost := by
  unfold leavingRecords at h
  split at h
  · obtain ⟨q, -, rfl⟩ := List.mem_map.1 h; simp
  · simp at h

theorem entryRecords_kind {g : Entry → Entry} {x : Byte} {m : List (Option Entry)} {r : EventRec}
    (h : r ∈ entryRecords g x m) : r.kind ≠ .lost := by
  rw [entryRecords_eq, List.mem_filterMap] at h
  obtain ⟨i, -, hi⟩ := h
  cases he : entryAt m i with
  | none => simp [he, entryRecord] at hi
  | some e =>
    rw [he, entryRecord] at hi
    split at hi
    · cases hi; simp
    · cases hi

theorem holdRecords_kind {a b : HoldReasons} {x : Byte} {r : EventRec} (h : r ∈ holdRecords a b x) : r.kind ≠ .lost := by
  unfold holdRecords at h
  split at h
  · simp at h
  · simp at h; subst h; simp

/-! ### RESTART (R35) -/

theorem restartEntry_eq (e : Entry) : restartEntry e = distrustedEntry e := by
  unfold restartEntry distrustedEntry
  dsimp only
  split <;> rfl

/-- The station of RESTART before it derives the drive mode: LISTEN entered, the entries distrusted, LONE cleared. -/
def restartListening (s : State) : State :=
  let s1 := watchForListen 0 (controlForListen (restartMirror (leaveIfSynced s)))
  setCtl { s1.ctl with holds := { s1.ctl.holds with lone := false } } s1

theorem restartNow_eq (s : State) :
    restartNow s =
      if s.ctl.holds.lone then
        post .hold (holdByte ⟨s.ctl.holds.host, false⟩) (mkWord 0 (holdByte s.ctl.holds))
          (postState .restart (updateDriveMode (restartListening s)))
      else postState .restart (updateDriveMode (restartListening s)) := by
  have hholds : (watchForListen 0 (controlForListen (restartMirror (leaveIfSynced s)))).ctl.holds = s.ctl.holds := by simp
  have hafter : (postState .restart (updateDriveMode (restartListening s))).ctl.holds = ⟨s.ctl.holds.host, false⟩ := by
    simp [restartListening]
  rw [← hafter]
  simp only [restartNow, hholds, restartListening]

theorem settings_congr {s t : State} (h : t.ctl.committed = s.ctl.committed) : t.settings = s.settings := by
  simp [State.settings, h]

@[simp] theorem restartListening_frame (s : State) :
    (restartListening s).pending = s.pending ∧ (restartListening s).time = s.time ∧ (restartListening s).port = s.port ∧
    (restartListening s).out = s.out ∧ (restartListening s).pts = s.pts ∧
    (restartListening s).par = (restartMirror (leaveIfSynced s)).par ∧
    (restartListening s).evq = (restartMirror (leaveIfSynced s)).evq ∧
    (restartListening s).cond = (restartMirror (leaveIfSynced s)).cond ∧
    (restartListening s).mir = s.mir.map (Option.map restartEntry) ∧
    (restartListening s).qry = qryAfterLeaving s ∧
    (restartListening s).line = { lineAfterLeaving s with
      phase := .watch, slot := none, slotTimer := none, contention := none, coldStart := some s.coldStartWait
      collisionRun := 0, driverRun := 0, foreignCount := 0 } ∧
    (restartListening s).ctl = { s.ctl with
      state := .listen, faultCause := .none, holds := ⟨s.ctl.holds.host, false⟩, loneCounter := 0, heard := false
      ageTimer := some s.agePeriod } := by
  simp only [restartListening]
  simp [State.coldStartWait, State.agePeriod, State.slots, State.address, State.ct, State.settings]

theorem restartListening_recorded (s : State) :
    Recorded (leavingRecords s ++ entryRecords restartEntry s.line.round s.mir) s (restartListening s) := by
  have hreport (e : Entry) : (restartEntry e).report = e.report := by rw [restartEntry_eq]; rfl
  have hentries := updateMirror_recorded restartEntry (fun e => decide ((restartEntry e).status ≠ e.status)) hreport
    (leaveIfSynced s)
  simp only [leaveIfSynced_frame, lineAfterLeaving_round] at hentries
  exact ((leaveIfSynced_recorded s).append hentries).to_end (by simp only [restartListening_frame]; rfl)
    (by simp only [restartListening_frame]; rfl)

theorem restartNow_recorded (s : State) :
    Recorded (leavingRecords s ++ entryRecords restartEntry s.line.round s.mir ++ [⟨.state, 1, 0x0800, s.line.round⟩] ++
      holdRecords s.ctl.holds ⟨s.ctl.holds.host, false⟩ s.line.round) s (restartNow s) := by
  have hround : (updateDriveMode (restartListening s)).line.round = s.line.round := by simp [lineAfterLeaving_round]
  have hmode : Recorded (leavingRecords s ++ entryRecords restartEntry s.line.round s.mir) s
      (updateDriveMode (restartListening s)) := (restartListening_recorded s).to_end (by simp) (by simp)
  have hstate : Recorded (leavingRecords s ++ entryRecords restartEntry s.line.round s.mir ++
      [⟨.state, 1, 0x0800, s.line.round⟩]) s (postState .restart (updateDriveMode (restartListening s))) :=
    hmode.postState .restart (st := .listen) (f := .none) (by simp) (by simp) hround
  have hlone : (⟨s.ctl.holds.host, false⟩ : HoldReasons) = s.ctl.holds ↔ s.ctl.holds.lone = false :=
    ⟨fun h => by rw [← h], fun h => by rw [← h]⟩
  rw [restartNow_eq, holdRecords]
  by_cases h : s.ctl.holds.lone = true
  · rw [if_pos h, if_neg (by simp [hlone, h])]
    exact hstate.post _ _ _ (by rw [(postState_frame _ _).2.1, hround])
  · rw [if_neg h, if_pos (by simpa [hlone] using h), List.append_nil]
    exact hstate

theorem deriveMode_listen (b : Bool) : deriveMode .listen ⟨b, false⟩ = if b then .safe else .drive := by
  cases b <;> rfl

/-- The blocks after RESTART but the output, point and condition units. -/
@[simp] theorem restartNow_frame (s : State) :
    (restartNow s).pending = s.pending ∧ (restartNow s).time = s.time ∧ (restartNow s).port = s.port ∧
    (restartNow s).mir = s.mir.map (Option.map restartEntry) ∧ (restartNow s).qry = qryAfterLeaving s ∧
    (restartNow s).line = { lineAfterLeaving s with
      phase := .watch, slot := none, slotTimer := none, contention := none, coldStart := some s.coldStartWait
      collisionRun := 0, driverRun := 0, foreignCount := 0 } ∧
    (restartNow s).ctl = { s.ctl with
      state := .listen, faultCause := .none, holds := ⟨s.ctl.holds.host, false⟩, loneCounter := 0, heard := false
      ageTimer := some s.agePeriod, driveMode := if s.ctl.holds.host then .safe else .drive } ∧
    (restartNow s).out = (updateDriveMode (restartListening s)).out ∧
    (restartNow s).pts = (updateDriveMode (restartListening s)).pts ∧
    (restartNow s).cond = (updateDriveMode (restartListening s)).cond := by
  rw [restartNow_eq]
  split <;> simp [deriveMode_listen]

theorem restartNow_restarted (s : State) : Restarted s (restartNow s) where
  ctl := by simp
  line := by simp
  mir := by simp [funext restartEntry_eq]
  qry := by simp
  drive hs hr := by
    have hnotices : (restartListening s).cond = { s.cond with
        notices := s.cond.notices ++ changedNotice distrustedEntry s.mir } := by
      have hrun : (leaveIfSynced s).ctl.state ≠ .config := by simpa [Running] using hr
      rw [(restartListening_frame s).2.2.2.2.2.2.2.1, restartMirror_eq, updateMirror_cond _ _ hrun]
      simp [changedNotice, restartEntry_eq]
    have htaken := updateDriveMode_taken (named := changedNotice distrustedEntry s.mir) hs hr (m := restartListening s)
      (by simp) (by simp) (by simp) hnotices (by simp)
    exact htaken.to_end (by simp [deriveMode_listen]) (by simp) (by simp) (by simp)
  kept := by
    have hmirror : DriveOnly s (restartListening s) :=
      (driveOnly_updateMirror restartEntry (fun e => decide ((restartEntry e).status ≠ e.status)) (leaveIfSynced s)).of_start
        (by simp) (by simp) (by simp) |>.to_end (by simp) (by simp) (by simp)
    exact (hmirror.trans (driveOnly_updateDriveMode _)).to_end (by simp) (by simp) (by simp)
  events := by
    simpa only [restartEntry_eq, funext restartEntry_eq] using restartNow_recorded s
  rest := by simp

end Sys2Proof.Machine

/-! PROOF. The round close and the end of a slot in the words of the statements (R7, R9, R39, R68, R135). -/

namespace Sys2Proof.Machine

/-! ### A change of the hold reasons (R40, R43) -/

theorem setHolds_of_eq {h : HoldReasons} {s : State} (hh : h = s.ctl.holds) : setHolds h s = s := if_pos hh

theorem setHolds_of_ne {h : HoldReasons} {s : State} (hh : h ≠ s.ctl.holds) :
    setHolds h s = post .hold (holdByte h) (mkWord 0 (holdByte s.ctl.holds))
      (updateDriveMode (setCtl { s.ctl with holds := h } s)) := if_neg hh

theorem setHolds_recorded (h : HoldReasons) (s : State) :
    Recorded (holdRecords s.ctl.holds h s.line.round) s (setHolds h s) := by
  unfold holdRecords
  by_cases hh : h = s.ctl.holds
  · rw [if_pos hh, setHolds_of_eq hh]
    exact recorded_refl s
  · rw [if_neg hh, setHolds_of_ne hh]
    have hmode : Recorded [] s (updateDriveMode (setCtl { s.ctl with holds := h } s)) :=
      (recorded_refl s).to_end (by simp) (by simp)
    exact hmode.post _ _ _ (by simp)

theorem setHolds_ctl (h : HoldReasons) (s : State) :
    (setHolds h s).ctl = { s.ctl with
      holds := h, driveMode := if h = s.ctl.holds then s.ctl.driveMode else deriveMode s.ctl.state h } := by
  by_cases hh : h = s.ctl.holds
  · rw [setHolds_of_eq hh, if_pos hh, hh]
  · rw [setHolds_of_ne hh, if_neg hh]
    simp

/-- With a drive mode that is the derived one, deriving it again changes nothing. -/
theorem updateDriveMode_of_eq {s : State} (h : s.ctl.driveMode = deriveMode s.ctl.state s.ctl.holds) :
    updateDriveMode s = s := if_pos h.symm

/-- A change of the hold reasons is the drive mode taken, where only notices and other blocks have moved since a sound station. -/
theorem setHolds_taken {named : List Notice} {s m : State} (h : HoldReasons) (hs : PinsSound s) (hr : Running s)
    (hrun : m.ctl.state ≠ .config) (hout : m.out = s.out) (hpts : m.pts = s.pts)
    (hcond : m.cond = { s.cond with notices := s.cond.notices ++ named }) (hmode : m.ctl.driveMode = s.ctl.driveMode)
    (hderive : m.ctl.driveMode = deriveMode m.ctl.state m.ctl.holds) : DriveTaken named s (setHolds h m) := by
  by_cases hh : h = m.ctl.holds
  · rw [setHolds_of_eq hh, ← updateDriveMode_of_eq hderive]
    exact updateDriveMode_taken hs hr hrun hout hpts hcond hmode
  · rw [setHolds_of_ne hh]
    have htaken := updateDriveMode_taken (m := setCtl { m.ctl with holds := h } m) hs hr hrun hout hpts hcond hmode
    exact htaken.to_end (by simp) (by simp) (by simp) (by simp)

/-! ### The round close (R9) -/

theorem ageEntry_eq (e : Entry) : ageEntry e = agedEntry e := by
  have hage : (if e.age < 15 then e.age + 1 else 15) = min (e.age + 1) 15 := by split <;> omega
  unfold ageEntry agedEntry staleIfReached
  simp only [hage]
  split
  · rfl
  · split
    · rfl
    · split <;> rfl

theorem ageEntry_report (e : Entry) : (ageEntry e).report = e.report := by
  unfold ageEntry staleIfReached; (repeat' split) <;> rfl

theorem closedQuery_eq (timeout : Nat) (q : Query) :
    (fun x => if timedOut timeout x then finishQuery .timeout 0 x else x)
      (if q.state = .sent then { q with waited := q.waited + 1 } else q) = closedQuery timeout q := by
  unfold closedQuery
  by_cases hsent : q.state = .sent
  · simp only [hsent, if_true, timedOut, decide_true, Bool.true_and, decide_eq_true_eq]
    rfl
  · simp [hsent, timedOut]

theorem advanceQueries_qry (s : State) :
    (advanceQueries s).qry = { s.qry with queries := s.qry.queries.map (closedQuery s.settings.timeout.toNat) } := by
  have hset : ∀ l : List Query, (setQueries l s).settings = s.settings := fun _ => rfl
  simp only [advanceQueries, takeTimeouts, finishWhere_frame, setQueries_qry, List.map_map, hset]
  rw [← funext (closedQuery_eq s.settings.timeout.toNat)]
  rfl

theorem closedRecords_eq (timeout : Nat) (round : Byte) (l : List Query) :
    queryRecords (timedOut timeout) .timeout round (l.map fun q => if q.state = .sent then { q with waited := q.waited + 1 } else q) =
      queryRecords (fun q => decide (q.state = .sent ∧ timeout ≤ q.waited + 1)) .timeout round l := by
  unfold queryRecords
  induction l with
  | nil => rfl
  | cons q rest ih =>
    by_cases hsent : q.state = .sent
    · by_cases hdue : timeout ≤ q.waited + 1 <;> simp_all [timedOut]
    · simp_all [timedOut]

theorem advanceQueries_recorded (s : State) :
    Recorded (queryRecords (fun q => decide (q.state = .sent ∧ s.settings.timeout.toNat ≤ q.waited + 1)) .timeout s.line.round
      s.qry.queries) s (advanceQueries s) := by
  rw [← closedRecords_eq]
  exact (finishWhere_recorded (timedOut s.settings.timeout.toNat) .timeout (setQueries _ s)).of_start rfl rfl

theorem loneClose_eq (s : State) :
    loneClose s.ctl s.settings.loneLimit.toNat = { s.ctl with heard := false, loneCounter := closedLone s } := by
  unfold loneClose closedLone
  cases hheard : s.ctl.heard with
  | true => simp
  | false =>
    simp only [Bool.false_eq_true, if_false, true_and]
    split <;> simp [← hheard]

/-- The controller's response to a round close is a change of the hold reasons to the closed ones (R39). -/
theorem loneStep_eq (s : State) :
    loneStep s = setHolds (closedHolds s) (setCtl { s.ctl with heard := false, loneCounter := closedLone s } s) := by
  simp only [loneStep, loneClose_eq]
  cases hheard : s.ctl.heard with
  | true =>
    rw [if_pos rfl, setHolds_of_eq]
    simp [closedHolds, hheard]
  | false =>
    rw [if_neg (by simp)]
    unfold loneReached
    have hsettings : (setCtl { s.ctl with heard := false, loneCounter := closedLone s } s).settings = s.settings := rfl
    rw [hsettings]
    split
    · rename_i hlone
      have hreached : 0 < s.settings.loneLimit.toNat ∧ closedLone s = s.settings.loneLimit.toNat := hlone
      congr 1
      simp [closedHolds, hheard, hreached]
    · rename_i hlone
      have hreached : ¬(0 < s.settings.loneLimit.toNat ∧ closedLone s = s.settings.loneLimit.toNat) := hlone
      rw [setHolds_of_eq]
      simp [closedHolds, hreached]

/-- The three responses to a round close, in the model's order (R9, log 8). -/
theorem announceClose_eq (s : State) :
    announceClose s = setHolds (closedHolds s)
      (setCtl { s.ctl with heard := false, loneCounter := closedLone s } (advanceQueries (ageStep s))) := by
  have hctl : (advanceQueries (ageStep s)).ctl = s.ctl := by simp
  have hsettings : (advanceQueries (ageStep s)).settings = s.settings := settings_congr (by rw [hctl])
  have hlone : closedLone (advanceQueries (ageStep s)) = closedLone s := by simp only [closedLone, hctl, hsettings]
  have hholds : closedHolds (advanceQueries (ageStep s)) = closedHolds s := by simp only [closedHolds, hlone, hctl, hsettings]
  rw [announceClose, loneStep_eq, hholds, hlone, hctl]

@[simp] theorem announceClose_line (s : State) : (announceClose s).line = s.line := by simp [announceClose_eq]

theorem announceClose_mir (s : State) : (announceClose s).mir = s.mir.map (Option.map ageEntry) := by simp [announceClose_eq]

theorem ageStep_settings (s : State) : (ageStep s).settings = s.settings := settings_congr (by simp)

theorem announceClose_closed (s : State) : RoundClosed s (announceClose s) where
  mir := by rw [announceClose_mir, funext ageEntry_eq]
  qry := by
    rw [announceClose_eq, (setHolds_frame _ _).2.2.2.1, setCtl_qry, advanceQueries_qry, ageStep_settings]
    simp
  ctl := by rw [announceClose_eq, setHolds_ctl]; rfl
  drive hs hr := by
    have hnotices : (ageStep s).cond = { s.cond with notices := s.cond.notices ++ changedNotice agedEntry s.mir } := by
      rw [ageStep_eq, updateMirror_cond _ _ hr]
      simp only [changedNotice, ageEntry_eq]
    rw [announceClose_eq]
    exact setHolds_taken _ hs hr hr (by simp) (by simp)
      (by rw [setCtl_cond, (advanceQueries_frame _).2.2.2.2.2.1, hnotices]) rfl hs.2.1
  kept := by
    rw [announceClose_eq]
    have hage : DriveOnly s (advanceQueries (ageStep s)) :=
      (driveOnly_updateMirror ageEntry (fun e => decide ((ageEntry e).status ≠ e.status)) s).to_end (by simp) (by simp) (by simp)
    exact hage.trans ((driveOnly_setHolds _ _).of_start rfl rfl rfl)
  events := by
    have hage := updateMirror_recorded ageEntry (fun e => decide ((ageEntry e).status ≠ e.status)) ageEntry_report s
    have hqueries := advanceQueries_recorded (ageStep s)
    rw [ageStep_settings] at hqueries
    have hholds := setHolds_recorded (closedHolds s)
      (setCtl { s.ctl with heard := false, loneCounter := closedLone s } (advanceQueries (ageStep s)))
    rw [announceClose_eq, ← funext ageEntry_eq]
    have hboth := (hage.append hqueries).append (hholds.of_start rfl rfl)
    simpa using hboth
  rest := by simp [announceClose_eq]

/-! ### Slots (R7) -/

theorem startSlot_line (k elapsed : Nat) (picture : Option SlotPicture) (s : State) :
    (startSlot k elapsed picture s).line = slotLine k elapsed picture s s.line := by
  simp only [startSlot, slotLine]
  split
  · simp only [gather_line, setLine_line, slotPicture]; rfl
  · rfl

/-- A slot start changes the line unit only. -/
theorem startSlot_eq (k elapsed : Nat) (picture : Option SlotPicture) (s : State) :
    startSlot k elapsed picture s = { s with line := slotLine k elapsed picture s s.line } := by
  rw [← startSlot_line]
  simp only [startSlot]
  split <;> rfl

/-- What a slot's line unit takes from the station it takes as the station stands with any line unit of the same round. -/
theorem slotLine_congr {k elapsed : Nat} {picture : Option SlotPicture} {s t : State} (l : LineUnit)
    (hc : t.ctl = s.ctl) (hp : t.pts = s.pts) (hq : t.qry = s.qry) (hr : t.line.round = s.line.round) :
    slotLine k elapsed picture t l = slotLine k elapsed picture s l := by
  have hsettings : t.settings = s.settings := settings_congr (by rw [hc])
  have hown : ownSlot t = ownSlot s := by simp only [ownSlot, hsettings, hr, hc, hp, hq]
  have haddress : t.address = s.address := congrArg (fun c : Settings => c.address.toNat) hsettings
  have hct : t.ct = s.ct := congrArg (fun c : Settings => Config.ctUnits c.rate) hsettings
  simp only [slotLine, haddress, hct, hown, hq]

theorem slotLine_round (k elapsed : Nat) (picture : Option SlotPicture) (t : State) (l : LineUnit) :
    (slotLine k elapsed picture t l).round = l.round := by
  simp only [slotLine]; split <;> rfl

/-- The line unit of a started slot, as the station then stands. -/
theorem startSlot_line_self (k elapsed : Nat) (picture : Option SlotPicture) (s : State) :
    (startSlot k elapsed picture s).line = slotLine k elapsed picture (startSlot k elapsed picture s) s.line := by
  rw [startSlot_eq]
  exact (slotLine_congr (s := s) s.line (t := { s with line := slotLine k elapsed picture s s.line }) rfl rfl rfl
    (slotLine_round k elapsed picture s s.line)).symm

theorem loadContention_line_eq (elapsed : Nat) (s : State) :
    (loadContention elapsed s).line = contentionLine elapsed s s.line := rfl

theorem contentionLine_congr {elapsed : Nat} {s t : State} (l : LineUnit) (h : t.ctl.committed = s.ctl.committed) :
    contentionLine elapsed t l = contentionLine elapsed s l := by
  simp only [contentionLine, State.ct, State.address, settings_congr h]

/-- What the line unit is told does not touch a closed round's blocks. -/
theorem RoundClosed.to_end {s m t : State} (h : RoundClosed s m) (ht : t = { m with line := t.line }) : RoundClosed s t := by
  rw [ht]
  exact {
    mir := h.mir, qry := h.qry, ctl := h.ctl, events := h.events, rest := h.rest
    drive := fun hs hr => (h.drive hs hr).to_end rfl rfl rfl rfl
    kept := h.kept.to_end rfl rfl rfl }

theorem endSlot_ended (k elapsed : Nat) (picture : Option SlotPicture) (s : State) :
    SlotEnded k elapsed picture s (endSlot k elapsed picture s) := by
  refine ⟨fun hnext => ?next, fun hlast => ?last⟩
  case next =>
    rw [endSlot, if_pos hnext]
    exact ⟨startSlot_line_self _ _ _ _, by rw [startSlot_eq]⟩
  case last =>
    rw [endSlot, if_neg (Nat.not_lt.2 hlast), closeRound]
    refine ⟨(announceClose_closed s).to_end rfl, ?_⟩
    rw [loadContention_line_eq, announceClose_line]
    exact (contentionLine_congr s.line rfl).symm

end Sys2Proof.Machine

/-! PROOF. The changes of station state on the line in the words of the statements: entry to FAULT, sync loss, join and cold start (R26,
R27, R30 to R33), and which way each line event can move the station. -/

namespace Sys2Proof.Machine

/-! ### Entry to FAULT (R31, R32) -/

/-- The station that enters FAULT, before it derives the drive mode. -/
def faultEntering (f : FaultCause) (s : State) : State :=
  setCtl { (leaveIfSynced s).ctl with
    state := .fault, faultCause := f, ageTimer := if s.ctl.state = .synced then some s.agePeriod else s.ctl.ageTimer }
    (watchForFault (leaveIfSynced s))

theorem enterFault_eq (f : FaultCause) (c : StateCause) (s : State) :
    enterFault f c s = postState c (updateDriveMode (faultEntering f s)) := rfl

@[simp] theorem faultEntering_frame (f : FaultCause) (s : State) :
    (faultEntering f s).pending = s.pending ∧ (faultEntering f s).time = s.time ∧ (faultEntering f s).port = s.port ∧
    (faultEntering f s).mir = s.mir ∧ (faultEntering f s).out = s.out ∧ (faultEntering f s).pts = s.pts ∧
    (faultEntering f s).cond = s.cond ∧ (faultEntering f s).qry = qryAfterLeaving s ∧
    (faultEntering f s).evq = (leaveIfSynced s).evq ∧ (faultEntering f s).par = (leaveIfSynced s).par ∧
    (faultEntering f s).line = { lineAfterLeaving s with
      phase := .watch, slot := none, slotTimer := none, contention := none, coldStart := none } ∧
    (faultEntering f s).ctl = { s.ctl with
      state := .fault, faultCause := f
      loneCounter := if s.ctl.state = .synced then 0 else s.ctl.loneCounter
      heard := if s.ctl.state = .synced then false else s.ctl.heard
      ageTimer := if s.ctl.state = .synced then some s.agePeriod else s.ctl.ageTimer } := by
  simp [faultEntering]

@[simp] theorem enterFault_frame (f : FaultCause) (c : StateCause) (s : State) :
    (enterFault f c s).pending = s.pending ∧ (enterFault f c s).time = s.time ∧ (enterFault f c s).port = s.port ∧
    (enterFault f c s).mir = s.mir ∧ (enterFault f c s).qry = qryAfterLeaving s ∧
    (enterFault f c s).line = { lineAfterLeaving s with
      phase := .watch, slot := none, slotTimer := none, contention := none, coldStart := none } ∧
    (enterFault f c s).ctl = { s.ctl with
      state := .fault, faultCause := f, driveMode := .safe
      loneCounter := if s.ctl.state = .synced then 0 else s.ctl.loneCounter
      heard := if s.ctl.state = .synced then false else s.ctl.heard
      ageTimer := if s.ctl.state = .synced then some s.agePeriod else s.ctl.ageTimer } := by
  simp [enterFault_eq, deriveMode]

theorem enterFault_recorded (f : FaultCause) (c : StateCause) (s : State) :
    Recorded (leavingRecords s ++ [⟨.state, 3, mkWord (causeCode c) (faultCode f), s.line.round⟩]) s (enterFault f c s) := by
  have hleft : Recorded (leavingRecords s) s (updateDriveMode (faultEntering f s)) :=
    (leaveIfSynced_recorded s).to_end (by simp) (by simp)
  exact hleft.postState c (st := .fault) (f := f) (by simp) (by simp) (by simp [lineAfterLeaving_round])

theorem enterFault_entered (f : FaultCause) (c : StateCause) {s : State} (hs : PinsSound s) (hr : Running s) :
    FaultEntered f c s (enterFault f c s) where
  ctl := by simp
  line := by simp
  qry := by simp
  drive := by
    have htaken := updateDriveMode_taken (named := []) (m := faultEntering f s) hs hr (by simp) (by simp) (by simp) (by simp)
      (by simp)
    exact htaken.to_end (by simp [enterFault_eq]) (by simp [enterFault_eq]) (by simp [enterFault_eq]) (by simp [enterFault_eq])
  events := enterFault_recorded f c s
  rest := by simp

/-! ### Sync loss (R30) -/

/-- The station that sync loss takes to LISTEN, before it derives the drive mode. -/
def lossListening (foreign : Nat) (s : State) : State :=
  watchForListen foreign (controlForListen (leaveSynced
    (setCounters { s.par.counters with syncLosses := satInc s.par.counters.syncLosses } s)))

theorem syncLoss_eq (c : StateCause) (n : Nat) (s : State) :
    syncLoss c n s = postState c (updateDriveMode (lossListening n s)) := rfl

/-- The line unit after the notice of leaving SYNCED. -/
theorem leaveSynced_line_of_synced {s : State} (h : s.ctl.state = .synced) : (leaveSynced s).line = lineAfterLeaving s := by
  rw [← leaveIfSynced_of_synced h]; simp

theorem leaveSynced_qry_rest (s : State) : QryRest (leaveSynced s).qry := by
  simp only [leaveSynced_frame]
  refine ⟨fun q hq => ?_, rfl⟩
  obtain ⟨x, -, rfl⟩ := List.mem_map.1 hq
  unfold abortedQuery
  split
  · assumption
  · rfl

theorem qryAfterLeaving_rest {s : State} (h : s.ctl.state = .synced) : QryRest (qryAfterLeaving s) := by
  have hqry : (leaveSynced s).qry = qryAfterLeaving s := by rw [← leaveIfSynced_of_synced h]; simp
  exact hqry ▸ leaveSynced_qry_rest s

@[simp] theorem lossListening_frame (n : Nat) (s : State) :
    (lossListening n s).pending = s.pending ∧ (lossListening n s).time = s.time ∧ (lossListening n s).port = s.port ∧
    (lossListening n s).mir = s.mir ∧ (lossListening n s).out = s.out ∧ (lossListening n s).pts = s.pts ∧
    (lossListening n s).cond = s.cond ∧
    (lossListening n s).qry = { s.qry with queries := s.qry.queries.map abortedQuery, answers := [] } ∧
    (lossListening n s).line = { (leaveSynced s).line with
      phase := .watch, slot := none, slotTimer := none, contention := none, coldStart := some s.coldStartWait
      collisionRun := 0, driverRun := 0, foreignCount := n } ∧
    (lossListening n s).ctl = { s.ctl with
      state := .listen, faultCause := .none, loneCounter := 0, heard := false, ageTimer := some s.agePeriod } := by
  have hline (c : Counters) : (leaveSynced (setCounters c s)).line = (leaveSynced s).line := by
    rw [leaveSynced_line, leaveSynced_line]; rfl
  simp [lossListening, State.coldStartWait, State.agePeriod, State.slots, State.address, State.ct, State.settings, hline]

@[simp] theorem syncLoss_frame (c : StateCause) (n : Nat) (s : State) :
    (syncLoss c n s).ctl.state = .listen ∧ (syncLoss c n s).mir = s.mir ∧ (syncLoss c n s).port = s.port ∧
    (syncLoss c n s).time = s.time ∧ (syncLoss c n s).pending = s.pending ∧
    (syncLoss c n s).qry = { s.qry with queries := s.qry.queries.map abortedQuery, answers := [] } ∧
    (syncLoss c n s).line = { (leaveSynced s).line with
      phase := .watch, slot := none, slotTimer := none, contention := none, coldStart := some s.coldStartWait
      collisionRun := 0, driverRun := 0, foreignCount := n } ∧
    (syncLoss c n s).ctl = { s.ctl with
      state := .listen, faultCause := .none, loneCounter := 0, heard := false, ageTimer := some s.agePeriod
      driveMode := deriveMode .listen s.ctl.holds } := by
  simp [syncLoss_eq]

/-- LISTEN and SYNCED give the same drive mode (R40). -/
theorem deriveMode_listen_synced (h : HoldReasons) : deriveMode .listen h = deriveMode .synced h := by
  simp [deriveMode]

theorem syncLoss_lost (c : StateCause) (n : Nat) {s : State} (hs : PinsSound s) (h : s.ctl.state = .synced) :
    SyncLost c n s (syncLoss c n s) := by
  have hmode : s.ctl.driveMode = deriveMode .listen s.ctl.holds := by
    rw [hs.2.1, h, deriveMode_listen_synced]
  have hsame : updateDriveMode (lossListening n s) = lossListening n s := updateDriveMode_of_eq (by simpa using hmode)
  have hqry : qryAfterLeaving s = { s.qry with queries := s.qry.queries.map abortedQuery, answers := [] } := if_pos h
  exact {
    ctl := by rw [(syncLoss_frame c n s).2.2.2.2.2.2.2, ← hmode]
    line := by simp [leaveSynced_line_of_synced h]
    qry := by simp [hqry]
    blocks := by simp [syncLoss_eq, hsame]
    events := by
      rw [syncLoss_eq, hsame]
      generalize hcounted : setCounters { s.par.counters with syncLosses := satInc s.par.counters.syncLosses } s = counted
      have hleft : Recorded (leavingRecords s) counted (lossListening n s) := by
        have hrecords : leavingRecords s = queryRecords (fun q => decide (q.state ≠ .done)) .aborted s.line.round s.qry.queries :=
          if_pos h
        subst hcounted
        rw [hrecords]
        exact (leaveSynced_recorded _).to_end rfl rfl
      have hround : (lossListening n s).line.round = s.line.round := by
        rw [(lossListening_frame n s).2.2.2.2.2.2.2.2.1]
        simp [leaveSynced_line_of_synced h, lineAfterLeaving_round]
      have hall := hleft.postState c (st := .listen) (f := .none) (by simp) (by simp) hround
      subst hcounted
      exact hall
    rest := by simp }

/-! ### Join and cold start (R26, R27) -/

/-- The station that joins a round, before slot 0 starts: SYNCED with the OPEN's round number. -/
def joinEntered (round : Byte) (s : State) : State :=
  setLine { s.line with round := round } (controlForSynced s)

theorem join_eq (round : Byte) (s : State) :
    join round s = startSlot 0 0 none (postState .join (updateDriveMode (joinEntered round s))) := rfl

theorem coldStarted_eq (s : State) :
    coldStarted s = beginOpen (postState .coldStart (updateDriveMode (controlForSynced s))) := rfl

@[simp] theorem join_state (round : Byte) (s : State) : (join round s).ctl.state = .synced := by
  simp [join_eq, joinEntered]

@[simp] theorem coldStarted_state (s : State) : (coldStarted s).ctl.state = .synced := by
  simp [coldStarted_eq]

/-! ### The ways of the line (Fig. 5) -/

/-- The ways a line event can move the station; a station that leaves SYNCED has ended its queries (R33, R142). -/
def LineMoves (s t : State) : Prop :=
  t.ctl.state = s.ctl.state ∨
    (s.ctl.state = .listen ∧ (t.ctl.state = .synced ∨ t.ctl.state = .fault)) ∨
    (s.ctl.state = .synced ∧ (t.ctl.state = .listen ∨ t.ctl.state = .fault) ∧ QryRest t.qry)

theorem LineMoves.of_state {s t : State} (h : t.ctl.state = s.ctl.state) : LineMoves s t := .inl h

theorem LineMoves.of_start {s m t : State} (h : LineMoves m t) (hm : m.ctl.state = s.ctl.state) : LineMoves s t := by
  unfold LineMoves at *
  rwa [hm] at h

theorem enterFault_moves (f : FaultCause) (c : StateCause) {s : State} (h : s.ctl.state = .listen ∨ s.ctl.state = .synced) :
    LineMoves s (enterFault f c s) := by
  rcases h with h | h
  · exact .inr (.inl ⟨h, .inr (by simp)⟩)
  · exact .inr (.inr ⟨h, .inr (by simp), by simpa using qryAfterLeaving_rest h⟩)

theorem syncLoss_moves (c : StateCause) (n : Nat) {s : State} (h : s.ctl.state = .synced) : LineMoves s (syncLoss c n s) :=
  .inr (.inr ⟨h, .inl (by simp), by
    have hrest := leaveSynced_qry_rest s
    simpa using hrest⟩)

theorem duplicateAddress_moves (s : State) : LineMoves s (duplicateAddress s) := by
  unfold duplicateAddress
  split
  · exact enterFault_moves _ _ ‹_›
  · exact .of_state rfl

theorem driverFaulted_moves (s : State) : LineMoves s (driverFaulted s) := by
  unfold driverFaulted
  split
  · exact enterFault_moves _ _ ‹_›
  · exact .of_state rfl

theorem foreignReached_moves {s : State} (h : s.ctl.state = .listen) : LineMoves s (foreignReached s) := by
  unfold foreignReached
  split
  · exact enterFault_moves _ _ (.inl h)
  · exact .of_state rfl

@[simp] theorem loadColdStart_frame (e : Nat) (s : State) :
    (loadColdStart e s).ctl = s.ctl ∧ (loadColdStart e s).mir = s.mir ∧ (loadColdStart e s).qry = s.qry ∧
    (loadColdStart e s).pts = s.pts ∧ (loadColdStart e s).out = s.out ∧ (loadColdStart e s).cond = s.cond ∧
    (loadColdStart e s).par = s.par ∧ (loadColdStart e s).port = s.port ∧ (loadColdStart e s).evq = s.evq ∧
    (loadColdStart e s).time = s.time ∧ (loadColdStart e s).pending = s.pending ∧
    (loadColdStart e s).line = { s.line with
      coldStart := if s.ctl.state = .listen then some (s.coldStartWait - e) else s.line.coldStart } := by
  unfold loadColdStart
  split <;> simp

theorem slotCheck_moves (k : Nat) (f : SlotFrame) {s : State} (h : s.ctl.state = .synced) : LineMoves s (slotCheck k f s) := by
  unfold slotCheck
  dsimp only
  split
  · exact duplicateAddress_moves s
  split
  · exact .of_state (by simp)
  split
  · exact syncLoss_moves _ _ h
  split
  · exact .of_state (by simp)
  split
  · exact .of_state (by simp)
  · exact .of_state (by simp)

theorem frameInListen_moves (f : Frame) {s : State} (h : s.ctl.state = .listen) : LineMoves s (frameInListen f s) := by
  unfold frameInListen
  split
  · split
    · exact .inr (.inl ⟨h, .inl (by simp)⟩)
    · exact (foreignReached_moves (by simp [countForeign, h])).of_start (by simp [countForeign])
  · split
    · exact duplicateAddress_moves s
    · exact .of_state (by simp)

theorem openInSynced_moves (f : OpenFrame) {s : State} (h : s.ctl.state = .synced) : LineMoves s (openInSynced f s) := by
  unfold openInSynced
  split
  · split
    · exact .of_state (by simp [cutRound])
    · exact .of_state (by simp)
  · exact (syncLoss_moves _ _ (by simpa [countForeign] using h)).of_start (by simp [countForeign])

theorem slotInSynced_moves (f : SlotFrame) {s : State} (h : s.ctl.state = .synced) : LineMoves s (slotInSynced f s) := by
  unfold slotInSynced
  split
  · exact slotCheck_moves _ f h
  · split
    · exact duplicateAddress_moves s
    · exact .of_state (by simp [countMismatch])

theorem actOnReception_moves (f : Option Frame) (e : Nat) (p : Option SlotPicture) (s : State) :
    LineMoves s (actOnReception f e p s) := by
  unfold actOnReception
  split
  · exact .of_state rfl
  · rename_i h
    split
    · exact frameInListen_moves _ h
    · exact .of_state (by simp)
  · rename_i h
    split
    · exact openInSynced_moves _ h
    · exact slotInSynced_moves _ h
    · unfold invalidInSynced
      split <;> exact .of_state (by simp)
  · split
    · unfold frameInFault
      (repeat' split) <;> exact .of_state (by simp [countForeign])
    · exact .of_state rfl

theorem reportDuplicate_moves (s : State) : LineMoves s (reportDuplicate s) := by
  unfold reportDuplicate
  split
  · exact .of_state rfl
  · split
    · exact .of_state rfl
    · exact duplicateAddress_moves s

theorem reportDriver_moves (s : State) : LineMoves s (reportDriver s) := by
  unfold reportDriver
  split
  · exact .of_state rfl
  · split
    · exact .of_state rfl
    · exact driverFaulted_moves s

@[simp] theorem consumeItems_frame (s : State) :
    (consumeItems s).pending = s.pending ∧ (consumeItems s).line = s.line ∧ (consumeItems s).ctl = s.ctl ∧
    (consumeItems s).pts = s.pts ∧ (consumeItems s).mir = s.mir ∧ (consumeItems s).cond = s.cond ∧
    (consumeItems s).out = s.out ∧ (consumeItems s).par = s.par ∧ (consumeItems s).port = s.port ∧
    (consumeItems s).evq = s.evq ∧ (consumeItems s).time = s.time := by
  unfold consumeItems
  dsimp only
  split <;> split <;> simp

theorem collidedEnd_state (kind : FrameKind) (s : State) : (collidedEnd kind s).ctl.state = s.ctl.state := by
  unfold collidedEnd
  split
  · split <;> simp
  · simp

/-- What a line event may do when it is taken: its own effect, or nothing. -/
theorem LineMoves.ite {s a : State} {p : Prop} [Decidable p] (h : p → LineMoves s a) : LineMoves s (if p then a else s) := by
  split
  · exact h ‹_›
  · exact .of_state rfl

/-- Every line event moves the station along the ways of Fig. 5 only. -/
theorem lineEvent_moves (c : Instr) (s t : State) (hc : lineEvent c = true) (h : exec c s = .next t) : LineMoves s t := by
  cases c <;> simp only [lineEvent, Bool.false_eq_true] at hc <;> simp only [exec] at h
  case receptionEnd chars =>
    unfold execReceptionEnd at h
    split at h
    · injection h with h; subst h; exact .of_state rfl
    · injection h with h; subst h; exact .of_state (by simp)
    · simp only at h
      injection h with h; subst h
      split
      · exact .of_state rfl
      · exact (actOnReception_moves _ _ _ _).of_start (by simp [countReception])
  case foreignLimit => injection h with h; subst h; exact .ite fun h => foreignReached_moves h
  case skipPoint => injection h with h; subst h; exact .ite fun _ => .of_state (by simp)
  case entryStale =>
    injection h with h; subst h
    split
    · exact .of_state rfl
    · exact .of_state (by simp)
  case queryTimeout => injection h with h; subst h; exact .ite fun _ => .of_state (by simp [takeTimeouts])
  case lone =>
    injection h with h; subst h
    refine .ite fun _ => .of_state ?_
    unfold loneReached
    split <;> simp
  case transmissionStart => injection h with h; subst h; exact .ite fun _ => .of_state rfl
  case transmissionComplete =>
    injection h with h; subst h
    split
    · exact .of_state (by simp)
    · exact .of_state (by simp [openCompleted])
    · exact .of_state rfl
  case collision =>
    injection h with h; subst h
    split
    · exact (reportDuplicate_moves _).of_start (by simp)
    · exact .of_state rfl
  case collisionLimit => injection h with h; subst h; exact .ite fun _ => (duplicateAddress_moves _).of_start (by simp)
  case driverError =>
    injection h with h; subst h
    split
    · exact (reportDriver_moves _).of_start (by simp)
    · exact (reportDriver_moves _).of_start (by simp)
    · exact .of_state rfl
  case driverFault => injection h with h; subst h; exact .ite fun _ => (driverFaulted_moves _).of_start (by simp)
  case contentionTimeout => injection h with h; subst h; exact .ite fun _ => .of_state (by simp)
  case coldStart => injection h with h; subst h; exact .ite fun h => .inr (.inl ⟨h.1, .inl (by simp)⟩)
  case ageStepTimer => injection h with h; subst h; exact .ite fun _ => .of_state (by simp)
  case startBit =>
    injection h with h; subst h
    (repeat' split) <;> exact .of_state rfl
  case collidedFrameEnd =>
    injection h with h; subst h
    split
    · exact .of_state (by simp [collidedEnd_state])
    · exact .of_state rfl

end Sys2Proof.Machine

/-! PROOF. The bounded event queue, the mirror table and the query unit along every step (R58, R61, R68, R129, R140, R142, R188, R189),
and the ways of the station state (Fig. 5). -/

namespace Sys2Proof.Machine

/-! ### The event queue (R188, R189) -/

theorem restartNow_posted (s : State) : Posted s.evq (restartNow s).evq :=
  (restartNow_recorded s).posted fun r hr => by
    simp only [List.mem_append, List.mem_singleton] at hr
    rcases hr with ((hr | hr) | rfl) | hr
    · exact leavingRecords_kind hr
    · exact entryRecords_kind hr
    · simp
    · exact holdRecords_kind hr

theorem reconfigureNow_posted (s : State) : Posted s.evq (reconfigureNow s).evq :=
  (reconfigureNow_recorded s).posted fun r hr => by
    simp only [List.mem_append, List.mem_singleton] at hr
    rcases hr with ((hr | hr) | rfl) | hr
    · exact leavingRecords_kind hr
    · exact entryRecords_kind hr
    · simp
    · exact holdRecords_kind hr

theorem makeHeld_posted (c : HeldCommand) (s : State) : Posted s.evq (makeHeld c s).evq := by
  cases c
  · exact restartNow_posted s
  · exact reconfigureNow_posted s

theorem commitNow_posted (s : State) : Posted s.evq (commitNow s).evq :=
  ((commitStart_recorded s).posted fun r hr => by
    simp only [List.mem_singleton] at hr
    simp [hr]).trans (pass_posted _ _)

/-- A queue without its oldest record keeps its bound. -/
theorem queueOk_tail {r : EventRec} {q : List EventRec} (h : QueueOk (r :: q)) : QueueOk q := by
  obtain ⟨hlength, -, hcount⟩ := h
  rw [List.length_cons] at hlength
  exact ⟨by omega, fun h32 => by omega, fun x hx => hcount x (List.mem_cons_of_mem _ hx)⟩

/-- A command's body posts records of ordinary kinds, or takes the oldest record. -/
theorem bodyEffect_queueSound {s t : State} (h : BodyEffect s t) (hs : QueueSound s) : QueueSound t := by
  have posted {u : State} (hp : Posted s.evq u.evq) : QueueSound u := hp.ok hs
  cases h
  case commit => exact posted (commitNow_posted s)
  case take r rest hq =>
    rw [queueSound_iff, hq] at hs
    exact queueOk_tail hs
  case made c _ _ => exact posted (makeHeld_posted c s)
  case holds b _ => exact posted (setHolds_posted _ s)
  case point => exact posted (.of_eq (by simp))
  case outputs => exact posted (.of_eq (by simp [writeHostLevels]))
  case unlatch => exact posted (.of_eq (by simp [clearLatched]))
  case served q o w i v r a _ _ _ =>
    exact posted ((serveStore_posted w i v a s).trans
      (postQuery_posted q o (issueQuery (finishQuery o r q) (serveStore w i v a s))))
  all_goals exact hs

theorem keeps_queueSound : Keeps QueueSound where
  pending _ _ h := h
  port _ _ h := h
  reset _ := ⟨by simp [State.resetWith], by simp [State.resetWith], by simp [State.resetWith]⟩
  body i s h := bodyEffect_queueSound (body_effect i s) h
  release c s h _ _ := (makeHeld_posted c (setCtl { s.ctl with held := none } s)).ok h
  line c s t hc he h := (lineEvent_leaves c s t hc he).served.events.ok h
  input i b s t he h := by
    simp only [exec, execInputChange, inputChanged, Host.Outcome.next.injEq] at he
    subst he
    refine Posted.ok (q := s.evq) (.of_eq ?_) h
    (repeat' split) <;> simp
  filter m s t he h := by
    simp only [exec, execFilterExpiry, Host.Outcome.next.injEq] at he
    subst he
    exact Posted.ok (q := s.evq) (.of_eq (by simp)) h
  pass s h := (takeNotice_posted s).ok h
  confirm k s _ h := (expireConfirm_posted k s).ok h
  pulse i s _ h := Posted.ok (q := s.evq) (.of_eq (by simp)) h
  tick s h := by
    refine Posted.ok (q := s.evq) (.of_eq ?_) h
    simp only [tick]
    split <;> rfl

/-- Settles O53: postings keep the bound (`enqueue_ok`), and TAKE-EVENT takes the oldest record. -/
theorem queueStaysSound : Obligations.QueueStaysSound :=
  fun s t hs h => keeps_queueSound.step s t h hs

/-! ### The mirror table (R58, R61, R68, R75) -/

/-- An entry as it stands in CONFIG. -/
def EntryAtRest (e : Entry) : Prop := e.status = .never ∧ e.notOffered = false

theorem mirrorSound_iff (s : State) :
    MirrorSound s ↔ s.mir.length = 64 ∧ ∀ e, some e ∈ s.mir → EntrySound e ∧ (s.ctl.state = .config → EntryAtRest e) := Iff.rfl

/-- Soundness of the table depends on the table and on whether the station is in CONFIG. -/
theorem MirrorSound.congr {s t : State} (h : MirrorSound s) (hm : t.mir = s.mir)
    (hc : t.ctl.state = .config → s.ctl.state = .config) : MirrorSound t := by
  rw [mirrorSound_iff, hm]
  exact ⟨h.1, fun e he => ⟨(h.2 e he).1, fun k => (h.2 e he).2 (hc k)⟩⟩

theorem mem_map_entries {g : Entry → Entry} {m : List (Option Entry)} {e : Entry}
    (h : some e ∈ m.map (Option.map g)) : ∃ x, some x ∈ m ∧ g x = e := by
  obtain ⟨o, ho, he⟩ := List.mem_map.1 h
  cases o with
  | none => cases he
  | some x => exact ⟨x, ho, by simpa using he⟩

/-- An update of every entry keeps a sound table, where it keeps sound entries and in CONFIG gives entries at rest. -/
theorem MirrorSound.map {s t : State} (h : MirrorSound s) {g : Entry → Entry} (hm : t.mir = s.mir.map (Option.map g))
    (hg : ∀ e, EntrySound e → EntrySound (g e))
    (hc : t.ctl.state = .config → ∀ e, (s.ctl.state = .config → EntryAtRest e) → EntryAtRest (g e)) : MirrorSound t := by
  rw [mirrorSound_iff, hm]
  refine ⟨by simpa using h.1, fun e he => ?_⟩
  obtain ⟨x, hx, rfl⟩ := mem_map_entries he
  obtain ⟨hsound, hrest⟩ := h.2 x hx
  exact ⟨hg x hsound, fun k => hc k x hrest⟩

/-- A place written with a sound entry, at rest in CONFIG, keeps a sound table. -/
theorem MirrorSound.set {s t : State} (h : MirrorSound s) {i : Nat} {o : Option Entry} (hm : t.mir = s.mir.set i o)
    (hs : t.ctl.state = s.ctl.state) (ho : ∀ e, o = some e → EntrySound e ∧ (s.ctl.state = .config → EntryAtRest e)) :
    MirrorSound t := by
  rw [mirrorSound_iff, hm, hs]
  refine ⟨by simpa using h.1, fun e he => ?_⟩
  rcases List.mem_or_eq_of_mem_set he with he | he
  · exact h.2 e he
  · exact ho e he.symm

theorem entryAtRest_restarted (e : Entry) : EntryAtRest (restartedEntry e) := ⟨rfl, rfl⟩

theorem entryAtRest_aged {e : Entry} (h : EntryAtRest e) : EntryAtRest (ageEntry e) := by
  unfold ageEntry
  rw [if_pos h.1]
  exact h

theorem freshEntry_sound {source point age : Byte} (r : Bool) (h1 : source.toNat ≤ 31) (h2 : point.toNat ≤ 7)
    (h3 : 1 ≤ age.toNat) (h4 : age.toNat ≤ 15) : EntrySound (freshEntry source point age r) := by
  refine ⟨h1, h2, h3, h4, ?_, ?_, ?_⟩ <;> simp [freshEntry]

theorem mem_of_entryAt {m : List (Option Entry)} {i : Nat} {e : Entry} (h : entryAt m i = some e) : some e ∈ m := by
  unfold entryAt at h
  cases ho : m[i]? with
  | none => simp [ho] at h
  | some o =>
    simp only [ho, Option.getD_some] at h
    exact h ▸ List.mem_of_getElem? ho

theorem makeHeld_mirrorSound (c : HeldCommand) {s : State} (h : MirrorSound s) : MirrorSound (makeHeld c s) := by
  cases c
  · exact h.map (t := restartNow s) (by simp) Calm.restartEntry_sound (by simp)
  · exact h.map (t := reconfigureNow s) (by simp) Calm.restartedEntry_sound fun _ e _ => entryAtRest_restarted e

theorem commitNow_mirrorSound {s : State} (h : MirrorSound s) : MirrorSound (commitNow s) :=
  h.map (by simp [commitNow_eq]) Calm.restartedEntry_sound fun _ e _ => entryAtRest_restarted e

theorem bodyEffect_mirrorSound {s t : State} (h : BodyEffect s t) (hs : MirrorSound s) : MirrorSound t := by
  cases h
  case clearPlace i _ => exact hs.set (i := i) (o := none) rfl rfl (by simp)
  case setPlace i source point age r _ h1 h2 h3 h4 =>
    refine hs.set (i := i) rfl rfl fun e he => ?_
    injection he with he
    subst he
    exact ⟨freshEntry_sound r h1 h2 h3 h4, fun _ => ⟨rfl, rfl⟩⟩
  case commit => exact commitNow_mirrorSound hs
  case made c _ _ => exact makeHeld_mirrorSound c hs
  case holds => exact hs.congr (by simp) (by simp)
  case point => exact hs.congr (by simp) (by simp)
  case entryRead i e hrun he =>
    refine hs.set (i := i) rfl rfl fun x hx => ?_
    injection hx with hx
    subst hx
    obtain ⟨⟨h1, h2, h3, h4, h5, h6, h7⟩, -⟩ := hs.2 e (mem_of_entryAt he)
    exact ⟨⟨h1, h2, h3, h4, h5, h6, fun hn => ⟨(h7 hn).1, (h7 hn).2.1, (h7 hn).2.2.1, rfl, (h7 hn).2.2.2.2⟩⟩,
      fun hc => absurd hc hrun⟩
  case outputs => exact hs.congr (by simp [writeHostLevels]) (by simp [writeHostLevels])
  case unlatch => exact hs.congr (by simp [clearLatched]) (by simp [clearLatched])
  case served => exact hs.congr (by simp) (by simp)
  all_goals exact hs

/-! A line event in CONFIG leaves the table, or gives it an age step where an own frame's end closes a round. -/

/-- The table as it stands or after an age step. -/
def StandsOrAges (s t : State) : Prop := t.mir = s.mir ∨ t.mir = s.mir.map (Option.map ageEntry)

theorem startSlot_mir (k e : Nat) (p : Option SlotPicture) (s : State) : (startSlot k e p s).mir = s.mir := by
  rw [startSlot_eq]

theorem endCurrentSlot_mir (e : Nat) (s : State) : StandsOrAges s (endCurrentSlot e s) := by
  unfold endCurrentSlot
  split
  · unfold endSlot
    split
    · exact .inl (startSlot_mir _ _ _ s)
    · exact .inr (by simp only [closeRound, loadContention_mir, announceClose_mir])
  · exact .inl rfl

theorem duplicateAddress_of_config {s : State} (h : s.ctl.state = .config) : duplicateAddress s = s := if_neg (by simp [h])

theorem driverFaulted_of_config {s : State} (h : s.ctl.state = .config) : driverFaulted s = s := if_neg (by simp [h])

theorem reportDuplicate_mir {s : State} (h : s.ctl.state = .config) : (reportDuplicate s).mir = s.mir := by
  unfold reportDuplicate
  rw [duplicateAddress_of_config h]
  (repeat' split) <;> rfl

theorem reportDriver_mir {s : State} (h : s.ctl.state = .config) : (reportDriver s).mir = s.mir := by
  unfold reportDriver
  rw [driverFaulted_of_config h]
  (repeat' split) <;> rfl

theorem lineEvent_mir_config (c : Instr) (s t : State) (hc : lineEvent c = true) (h : exec c s = .next t)
    (hs : s.ctl.state = .config) : StandsOrAges s t := by
  cases c <;> simp only [lineEvent, Bool.false_eq_true] at hc <;> simp only [exec] at h
  case receptionEnd chars =>
    unfold execReceptionEnd at h
    split at h
    · injection h with h; subst h; exact .inl rfl
    · injection h with h; subst h; exact .inl (by simp)
    · injection h with h; subst h; exact .inl (by simp [hs])
  case transmissionComplete =>
    injection h with h; subst h
    split
    · have hended := endCurrentSlot_mir 0 (txDone (consumeItems s))
      simpa [StandsOrAges] using hended
    · exact .inl (by simp [openCompleted, startSlot_mir])
    · exact .inl rfl
  case collision =>
    injection h with h; subst h
    split
    · exact .inl (by rw [reportDuplicate_mir (by simpa using hs)]; simp)
    · exact .inl rfl
  case driverError =>
    injection h with h; subst h
    split
    · exact .inl (by rw [reportDriver_mir (by simpa using hs)]; simp)
    · exact .inl (by rw [reportDriver_mir (by simpa using hs)]; simp)
    · exact .inl rfl
  case startBit =>
    injection h with h; subst h
    (repeat' split) <;> exact .inl rfl
  case collidedFrameEnd =>
    injection h with h; subst h
    split
    · exact .inl (by simp [collidedEnd, hs])
    · exact .inl rfl
  case collisionLimit =>
    injection h with h; subst h
    split
    · exact .inl (by rw [duplicateAddress_of_config (by exact hs)]; rfl)
    · exact .inl rfl
  case driverFault =>
    injection h with h; subst h
    split
    · exact .inl (by rw [driverFaulted_of_config (by exact hs)]; rfl)
    · exact .inl rfl
  all_goals
    injection h with h
    subst h
    exact .inl (by simp [hs])

theorem lineEvent_mirrorSound (c : Instr) (s t : State) (hc : lineEvent c = true) (h : exec c s = .next t)
    (hs : MirrorSound s) : MirrorSound t := by
  have hleaves := (lineEvent_leaves c s t hc h).served
  by_cases hconfig : s.ctl.state = .config
  · rcases lineEvent_mir_config c s t hc h hconfig with hm | hm
    · exact hs.congr hm fun _ => hconfig
    · exact hs.map hm Calm.ageEntry_sound fun _ e he => entryAtRest_aged (he hconfig)
  · have hrun : t.ctl.state ≠ .config := fun k => hconfig (hleaves.config.1 k)
    exact ⟨hleaves.mir.length.trans hs.1,
      fun e he => ⟨hleaves.mir.sound (fun x hx => (hs.2 x hx).1) e he, fun k => absurd k hrun⟩⟩

theorem resetWith_mir (w : Word) : (State.resetWith w).mir = List.replicate 64 none := rfl

@[simp] theorem tick_frame (s : State) :
    (tick s).mir = s.mir ∧ (tick s).qry = s.qry ∧ (tick s).ctl.state = s.ctl.state ∧ (tick s).ctl.held = s.ctl.held ∧
    (tick s).port = s.port ∧ (tick s).evq = s.evq ∧ (tick s).par = s.par ∧ (tick s).cond.defs = s.cond.defs ∧
    (tick s).pending = s.pending := by
  simp only [tick]
  split <;> simp [tickMs]

@[simp] theorem inputChanged_frame (i : Nat) (b : Bool) (s : State) :
    (inputChanged i b s).mir = s.mir ∧ (inputChanged i b s).qry = s.qry ∧ (inputChanged i b s).ctl = s.ctl ∧
    (inputChanged i b s).port = s.port ∧ (inputChanged i b s).line = s.line ∧ (inputChanged i b s).out = s.out ∧
    (inputChanged i b s).par = s.par ∧ (inputChanged i b s).evq = s.evq ∧ (inputChanged i b s).time = s.time ∧
    (inputChanged i b s).pending = s.pending ∧ (inputChanged i b s).cond.defs = s.cond.defs := by
  unfold inputChanged
  (repeat' split) <;> simp

theorem keeps_mirrorSound : Keeps MirrorSound where
  pending _ _ h := h
  port _ _ h := h
  reset w := ⟨by simp [resetWith_mir], fun e he => by simp [resetWith_mir] at he⟩
  body i s h := bodyEffect_mirrorSound (body_effect i s) h
  release c s h _ _ := makeHeld_mirrorSound c (h.congr rfl id)
  line := lineEvent_mirrorSound
  input i b s t he h := by
    simp only [exec, execInputChange, Host.Outcome.next.injEq] at he
    subst he
    split
    · exact h
    · exact h.congr (by simp) (by simp)
  filter m s t he h := by
    simp only [exec, execFilterExpiry, Host.Outcome.next.injEq] at he
    subst he
    exact h.congr (by simp) (by simp)
  pass s h := h.congr (by simp) (by simp)
  confirm k s _ h := h.congr (by simp) (by simp)
  pulse i s _ h := h.congr (by simp) (by simp)
  tick s h := h.congr (by simp) (by simp)

/-- Settles O54: updates of the table keep sound entries, and in CONFIG entries stand or an age step leaves them NEVER. -/
theorem mirrorStaysSound : Obligations.MirrorStaysSound :=
  fun s t hs h => keeps_mirrorSound.step s t h hs

end Sys2Proof.Machine

/-! PROOF. What a host's message does at a free port (R147, R153, R154, R177): the placed reply over the state its body leaves,
the refusals in their order, and the commands that read or define one thing. -/

namespace Sys2Proof.Machine

/-! ### A whole message at a free port -/

/-- A body that answers, whatever the port holds, and leaves the port alone has its reply placed over its state. -/
theorem exec_replies {c : Instr} {code : Byte} {ops data : List Byte} {st : Status} {s t : State}
    (hm : messageOf c = some (code, ops)) (hf : operandsFit ops = true) (hp : PortFree s)
    (hb : ∀ p, bodyOf (decodeMessage code ops) (setPort p s) = (some ⟨st, data⟩, setPort p t)) (ht : t.port = s.port) :
    exec c s = .next (withReply st data t) := by
  rw [exec_body c code ops s hm hf hp, execute_reply _ _ s _ st data hp (hb _) rfl]
  simp only [withReply, setPort, ht]

/-- A body that refuses, whatever the port holds, has the refusal placed. -/
theorem exec_refuses {c : Instr} {code : Byte} {ops : List Byte} {st : Status} {s : State}
    (hm : messageOf c = some (code, ops)) (hf : operandsFit ops = true) (hp : PortFree s)
    (hb : ∀ p, bodyOf (decodeMessage code ops) (setPort p s) = refuse st (setPort p s)) :
    exec c s = .next (withReply st [] s) :=
  exec_replies hm hf hp hb rfl

theorem whenRunning_of_running {s : State} (h : Running s) (r : Result) : whenRunning s r = r := if_neg h

theorem readQuality_qualityCode (q : Quality) : readQuality (qualityCode q) = some q := by cases q <;> rfl

theorem readQuality_of_gt {b : Byte} (h : 1 < b.toNat) : readQuality b = none := by
  have h0 : b ≠ 0 := by rintro rfl; simp at h
  have h1 : b ≠ 1 := by rintro rfl; simp at h
  rw [readQuality, if_neg h0, if_neg h1]

/-! ### The machine and the port -/

/-- Settles O1: the front command is the one the step matches on. -/
theorem stepTakesFrontCommand : Obligations.StepTakesFrontCommand := fun _ _ _ => rfl

/-- Settles O8: the port reset by the phase it finds. -/
theorem portResetByPhase : Obligations.PortResetByPhase := by
  intro b s
  have reset : exec (.portReset b) s = .next (portReset s) := rfl
  refine ⟨fun h => ?ready, fun h => ?filling, fun h => ?executing, fun h => ?replying⟩ <;> rw [reset] <;>
    simp [portReset, h, setPort, emptyBuffers]

/-! ### Points (R52, R56) -/

theorem cmdWritePoint_of_host {point hi lo quality : Byte} {q : Quality} {s : State} (hr : Running s) (h3 : 3 ≤ point.toNat)
    (h7 : point.toNat ≤ 7) (hq : quality = qualityCode q) :
    cmdWritePoint [point, hi, lo, quality] s =
      okPlain (changePoint point.toNat ⟨mkWord hi lo, q⟩ (.point point.toNat) s) := by
  subst hq
  simp only [cmdWritePoint, whenRunning_of_running hr, h3, h7, and_self, if_true, readQuality_qualityCode]

theorem cmdWritePoint_refused {point hi lo quality : Byte} {s : State} (hr : Running s)
    (h : point.toNat < 3 ∨ 7 < point.toNat ∨ 1 < quality.toNat) :
    cmdWritePoint [point, hi, lo, quality] s = refuse .badOperand s := by
  simp only [cmdWritePoint, whenRunning_of_running hr]
  split
  case isTrue hpoint =>
    have hquality : 1 < quality.toNat := by omega
    rw [readQuality_of_gt hquality]
  case isFalse => rfl

theorem changePoint_of_eq {i : Nat} {p : Point} {n : Notice} {s : State} (h : pointAt s i = p) : changePoint i p n s = s :=
  if_pos h

theorem changePoint_of_ne {i : Nat} {p : Point} {n : Notice} {s : State} (hr : Running s) (h : pointAt s i ≠ p) :
    changePoint i p n s = { s with
      pts := { s.pts with points := s.pts.points.set i p }, cond := { s.cond with notices := s.cond.notices ++ [n] } } := by
  have hrun : ¬ (storePoint i p s).ctl.state = .config := hr
  rw [changePoint, if_neg h, notify, if_neg hrun]
  rfl

/-- Settles O26: an equal record is left, another one stored and announced, and the range checks refuse the rest. -/
theorem writePointAnnounces : Obligations.WritePointAnnounces := by
  intro point hi lo quality q s hp hr
  have hm : messageOf (.writePoint [point, hi, lo, quality]) = some (0x40, [point, hi, lo, quality]) := rfl
  refine ⟨fun h3 h7 hq heq => ?equal, fun h3 h7 hq hne => ?changed, fun h => ?refused⟩
  case equal =>
    refine exec_replies hm rfl hp (fun p => ?_) rfl
    have hbody := cmdWritePoint_of_host (s := setPort p s) (hi := hi) (lo := lo) hr h3 h7 hq
    rwa [changePoint_of_eq (s := setPort p s) heq] at hbody
  case changed =>
    refine exec_replies hm rfl hp (fun p => ?_) rfl
    have hbody := cmdWritePoint_of_host (s := setPort p s) (hi := hi) (lo := lo) hr h3 h7 hq
    rwa [changePoint_of_ne (s := setPort p s) hr hne] at hbody
  case refused => exact exec_refuses hm rfl hp fun p => cmdWritePoint_refused (s := setPort p s) hr h

/-! ### Run-time reads (R53, R77, R100, R119) -/

theorem wordOf_and (w : Word) (f : Nat → Bool) : w &&& wordOf f = wordOf fun i => f i && bitOf w i := by
  refine word_ext fun i hi => ?_
  simp [hi, Bool.and_comm]

theorem runningMask_and (ts : List Timer) (f : Nat → Bool) :
    runningMask ts &&& wordOf f = wordOf fun i => f i && isRunning (timerAt ts i) := by
  refine word_ext fun i hi => ?_
  simp [runningMask, hi, Bool.and_comm]

/-- The five vectors of READ-CONDITIONS, each with undefined places 0 (R100). -/
theorem conditionVectors_eq (s : State) :
    List.flatMap (fun f => wordBytes (wordOf fun k => (condAt s.cond k).isSome && f k))
        [fun _ => true, bitOf s.cond.raw, bitOf s.cond.sure, bitOf s.cond.confirmed, fun k => isRunning (timerAt s.cond.timers k)] =
      wordBytes (definedMask s.cond) ++ wordBytes (s.cond.raw &&& definedMask s.cond) ++
        wordBytes (s.cond.sure &&& definedMask s.cond) ++ wordBytes (s.cond.confirmed &&& definedMask s.cond) ++
        wordBytes (runningMask s.cond.timers &&& definedMask s.cond) := by
  simp only [definedMask, runningMask_and]
  simp only [wordOf_and, List.flatMap_cons, List.flatMap_nil, Bool.and_true, List.append_nil, List.append_assoc]

theorem cmdReadEntry_defined {place : Byte} {e : Entry} {s : State} (hr : Running s) (h : place.toNat ≤ 63)
    (he : entryAt s.mir place.toNat = some e) :
    cmdReadEntry [place] s = okWith (wordBytes e.value ++ [entryCode e.status, BitVec.ofNat 8 e.age, flagByte e.notOffered,
      flagByte e.changed, e.lastRound]) (setMir (s.mir.set place.toNat (some { e with changed := false })) s) := by
  simp only [cmdReadEntry, whenRunning_of_running hr, h, if_true, he]

theorem cmdReadEntry_undefined {place : Byte} {s : State} (hr : Running s) (h : place.toNat ≤ 63)
    (he : entryAt s.mir place.toNat = none) : cmdReadEntry [place] s = refuse .notFound s := by
  simp only [cmdReadEntry, whenRunning_of_running hr, h, if_true, he]

/-- Settles O27: each reply is the body's own, the vectors bit by bit; READ-ENTRY stores the entry with CHANGED clear. -/
theorem runtimeReads : Obligations.RuntimeReads := by
  refine ⟨fun s hp hr => ⟨?points, ?conditions, ?outputs⟩, fun place s hp hr => ⟨?defined, ?undefined, ?refused⟩⟩
  case points =>
    exact exec_replies (c := .readPoints []) rfl rfl hp (fun p => whenRunning_of_running (s := setPort p s) hr _) rfl
  case conditions =>
    rw [conditionVectors_eq]
    exact exec_replies (c := .readConditions []) rfl rfl hp (fun p => whenRunning_of_running (s := setPort p s) hr _) rfl
  case outputs =>
    rw [← wordOf_and, ← runningMask_and]
    exact exec_replies (c := .readOutputs []) rfl rfl hp (fun p => whenRunning_of_running (s := setPort p s) hr _) rfl
  case defined =>
    intro e hplace he
    exact exec_replies (c := .readEntry [place]) rfl rfl hp
      (fun p => cmdReadEntry_defined (s := setPort p s) hr hplace he) rfl
  case undefined =>
    intro hplace he
    exact exec_refuses (c := .readEntry [place]) rfl rfl hp
      (fun p => cmdReadEntry_undefined (s := setPort p s) hr hplace he)
  case refused =>
    intro hplace
    refine exec_refuses (c := .readEntry [place]) rfl rfl hp fun p => ?_
    exact (whenRunning_of_running (s := setPort p s) hr _).trans (if_neg (Nat.not_le.2 hplace))

/-! ### GET-STATUS and READ-PARAMETER (R124, R126, R182) -/

/-- The station words 16 to 31 in order (R124). -/
def stationWords (s : State) : List Word :=
  [mkWord s.settings.address (flagAt s.ctl.holds.lone 5 ||| flagAt s.ctl.holds.host 4 |||
      (faultCode s.ctl.faultCause <<< 2) ||| stateCode s.ctl.state),
    mkWord s.line.round s.settings.slots, s.par.counters.validFrames, s.par.counters.invalidFrames,
    s.par.counters.collisions, s.par.counters.roundsOpened, s.par.counters.mismatches, s.par.counters.slips,
    s.par.counters.syncLosses, s.par.counters.foreignOpens, s.par.counters.lateAnswers,
    s.par.counters.droppedQueries, s.ctl.signature, s.par.counters.lostRecords, 0x0416, s.par.counters.roundCuts]

theorem paramWord_station (s : State) {i : Nat} (h16 : 16 ≤ i) (h31 : i ≤ 31) :
    paramWord s i = (stationWords s).getD (i - 16) 0 := by
  obtain ⟨j, rfl⟩ := Nat.exists_eq_add_of_le h16
  have hj : j < 16 := by omega
  interval_cases j <;> rfl

theorem paramWord_eq (s : State) {i : Nat} (h31 : i ≤ 31) :
    paramWord s i = if i < 16 then s.par.host.getD i 0 else (stationWords s).getD (i - 16) 0 := by
  split
  case isTrue hlow => exact if_pos hlow
  case isFalse hhigh => exact paramWord_station s (Nat.not_lt.1 hhigh) h31

/-- Settles O17: the bodies answer in every state; the parameter word is read by its number. -/
theorem statusAndParameterReads : Obligations.StatusAndParameterReads := by
  intro index s hp
  have hm : messageOf (.readParameter [index]) = some (0x22, [index]) := rfl
  refine ⟨?status, fun h => ?word, fun h => ?refused⟩
  case status => exact exec_replies (c := .getStatus []) rfl rfl hp (fun p => rfl) rfl
  case word =>
    have hread : exec (.readParameter [index]) s = .next (withReply .ok (wordBytes (paramWord s index.toNat)) s) :=
      exec_replies hm rfl hp (fun p => if_pos h) rfl
    rw [paramWord_eq s h] at hread
    exact hread
  case refused => exact exec_refuses hm rfl hp fun p => if_neg (Nat.not_le.2 h)

end Sys2Proof.Machine

/-! PROOF. The configuration commands and READ-CONFIG (R158, R162 to R168, R198): what each operand code reads as, which operands are
in range, and that what was stored reads back as the bytes it was set with. -/

namespace Sys2Proof.Machine

/-! ### Operand codes (R198) -/

theorem readMode_eq_some {b : Byte} {m : Mode} (h : readMode b = some m) : modeCode m = b := by
  unfold readMode at h
  split_ifs at h <;> cases h <;> exact .symm ‹_›

theorem readMode_isSome (b : Byte) : (readMode b).isSome = true ↔ b.toNat ≤ 3 := by
  unfold readMode
  split_ifs <;> simp <;> bv_omega

theorem readPolicy_eq_some {b : Byte} {p : Policy} (h : readPolicy b = some p) : policyCode p = b := by
  unfold readPolicy at h
  split_ifs at h <;> cases h <;> exact .symm ‹_›

theorem readPolicy_isSome (b : Byte) : (readPolicy b).isSome = true ↔ b.toNat ≤ 3 := by
  unfold readPolicy
  split_ifs <;> simp <;> bv_omega

theorem readKind_eq_some {b : Byte} {k : OutKind} (h : readKind b = some k) : kindOperand k = b := by
  unfold readKind at h
  split_ifs at h <;> cases h <;> exact .symm ‹_›

theorem readKind_isSome (b : Byte) : (readKind b).isSome = true ↔ b.toNat ≤ 4 := by
  unfold readKind
  split_ifs <;> simp <;> bv_omega

theorem readFlag_eq_some {b : Byte} {f : Bool} (h : readFlag b = some f) : f = decide (b = 1) ∧ flagByte f = b := by
  unfold readFlag at h
  split_ifs at h <;> cases h <;> subst b <;> exact ⟨rfl, rfl⟩

theorem readFlag_isSome (b : Byte) : (readFlag b).isSome = true ↔ b.toNat ≤ 1 := by
  rw [readFlag_eq]
  split_ifs <;> simp <;> omega

theorem readSource_eq_some {b : Byte} {o : OutSource} (h : readSource b = some o) : sourceCode o = b := by
  unfold readSource at h
  split_ifs at h <;> cases h
  · simp [sourceCode]
  · exact .symm ‹_›

theorem readSource_isSome (b : Byte) : (readSource b).isSome = true ↔ b.toNat ≤ 15 ∨ b = 0x80 := by
  unfold readSource
  split_ifs <;> simp <;> bv_omega

/-- A term reference in range (R198). -/
def RefInRange (b : Byte) : Prop := b.toNat ≤ 0x07 ∨ (0x40 ≤ b.toNat ∧ b.toNat ≤ 0x7F)

theorem readRef_eq_some {b : Byte} {r : TermRef} (h : readRef b = some r) : refCode r = b := by
  unfold readRef at h
  split_ifs at h with hpoint hentry <;> cases h
  · simp [refCode]
  · have hplace : 64 + (b.toNat - 64) = b.toNat := by omega
    simp [refCode, hplace]

theorem readRef_isSome (b : Byte) : (readRef b).isSome = true ↔ RefInRange b := by
  unfold readRef RefInRange
  split_ifs <;> simp <;> omega

/-! ### Terms and whole definitions (R162, R165, R178) -/

theorem readTerm_eq_some {r mh ml ph pl : Byte} {t : Term} (h : readTerm r mh ml ph pl = some t) :
    termBytes t = [r, mh, ml, ph, pl] := by
  unfold readTerm at h
  split at h
  case h_1 ref href =>
    cases h
    simp [termBytes, wordBytes, readRef_eq_some href]
  case h_2 => cases h

theorem readTerm_isSome (r mh ml ph pl : Byte) : (readTerm r mh ml ph pl).isSome = true ↔ RefInRange r := by
  rw [← readRef_isSome]
  cases h : readRef r <;> simp [readTerm, h]

theorem readTerms_cons_eq (r mh ml ph pl : Byte) (rest : List Byte) :
    readTerms (r :: mh :: ml :: ph :: pl :: rest) =
      (readTerm r mh ml ph pl).bind fun t => (readTerms rest).bind fun ts => some (t :: ts) := by
  rw [readTerms]
  cases readTerm r mh ml ph pl <;> cases readTerms rest <;> rfl

/-- A list of five bytes and more begins with one term part. -/
theorem exists_termPart {l : List Byte} {n : Nat} (h : l.length = 5 * (n + 1)) :
    ∃ r mh ml ph pl rest, l = r :: mh :: ml :: ph :: pl :: rest ∧ rest.length = 5 * n := by
  match l, h with
  | r :: mh :: ml :: ph :: pl :: rest, h => exact ⟨r, mh, ml, ph, pl, rest, rfl, by simp at h; omega⟩
  | [], h | [_], h | [_, _], h | [_, _, _], h | [_, _, _, _], h => simp at h <;> omega

/-- The terms read are the terms written: their bytes are the term parts (R162). -/
theorem readTerms_eq_some {n : Nat} {l : List Byte} {ts : List Term} (hl : l.length = 5 * n) (h : readTerms l = some ts) :
    ts.flatMap termBytes = l := by
  induction n generalizing l ts with
  | zero =>
    obtain rfl := List.length_eq_zero_iff.1 hl
    cases h
    rfl
  | succ n ih =>
    obtain ⟨r, mh, ml, ph, pl, rest, rfl, hrest⟩ := exists_termPart hl
    rw [readTerms_cons_eq] at h
    simp only [Option.bind_eq_some_iff, Option.some.injEq] at h
    obtain ⟨t, ht, us, hus, rfl⟩ := h
    rw [List.flatMap_cons, readTerm_eq_some ht, ih hrest hus]
    rfl

/-- The terms are read exactly when every reference, the first byte of five, is in range (R162). -/
theorem readTerms_isSome {n : Nat} {l : List Byte} (hl : l.length = 5 * n) :
    (readTerms l).isSome = true ↔ ∀ i, 5 * i < l.length → RefInRange (l.getD (5 * i) 0) := by
  induction n generalizing l with
  | zero =>
    obtain rfl := List.length_eq_zero_iff.1 hl
    simp [readTerms]
  | succ n ih =>
    obtain ⟨r, mh, ml, ph, pl, rest, rfl, hrest⟩ := exists_termPart hl
    have hsplit : (readTerms (r :: mh :: ml :: ph :: pl :: rest)).isSome = true ↔
        RefInRange r ∧ (readTerms rest).isSome = true := by
      rw [readTerms_cons_eq, ← readTerm_isSome r mh ml ph pl]
      cases readTerm r mh ml ph pl <;> cases readTerms rest <;> simp
    rw [hsplit, ih hrest]
    constructor
    · rintro ⟨hfirst, hlater⟩ i hi
      cases i with
      | zero => exact hfirst
      | succ i => exact hlater i (by simp only [List.length_cons] at hi; omega)
    · intro hall
      refine ⟨hall 0 (by simp), fun i hi => ?_⟩
      exact hall (i + 1) (by simp only [List.length_cons]; omega)

theorem readCondition_eq_some {mode policy held report t1 t0 : Byte} {terms : List Byte} {d : Condition}
    (h : readCondition mode policy held report t1 t0 terms = some d) :
    readMode mode = some d.mode ∧ readPolicy policy = some d.policy ∧ readFlag held = some d.heldUnknown ∧
      readFlag report = some d.report ∧ d.t1 = t1 ∧ d.t0 = t0 ∧ readTerms terms = some d.terms := by
  unfold readCondition at h
  split at h
  case h_1 hm hp hh hr ht =>
    cases h
    exact ⟨hm, hp, hh, hr, rfl, rfl, ht⟩
  case h_2 => cases h

theorem readCondition_isSome (mode policy held report t1 t0 : Byte) (terms : List Byte) :
    (readCondition mode policy held report t1 t0 terms).isSome = true ↔
      (readMode mode).isSome = true ∧ (readPolicy policy).isSome = true ∧ (readFlag held).isSome = true ∧
        (readFlag report).isSome = true ∧ (readTerms terms).isSome = true := by
  unfold readCondition
  split
  case h_1 hm hp hh hr ht => simp [hm, hp, hh, hr, ht]
  case h_2 hnone =>
    simp only [Option.isSome_none, Bool.false_eq_true, false_iff]
    rintro ⟨hm, hp, hh, hr, ht⟩
    exact hnone _ _ _ _ _ (Option.some_get hm).symm (Option.some_get hp).symm (Option.some_get hh).symm
      (Option.some_get hr).symm (Option.some_get ht).symm

theorem readRule_eq_some {source kind safe width : Byte} {r : OutRule} (h : readRule source kind safe width = some r) :
    readSource source = some r.source ∧ readKind kind = some r.kind ∧ readFlag safe = some r.safe ∧ r.width = width := by
  unfold readRule at h
  split at h
  case h_1 hs hk hl =>
    split_ifs at h
    cases h
    exact ⟨hs, hk, hl, rfl⟩
  case h_2 => cases h

theorem readKind_pulse_iff {kind : Byte} {k : OutKind} (h : readKind kind = some k) : k = .pulse ↔ kind = 3 := by
  rw [← readKind_eq_some h]
  cases k <;> decide

theorem readRule_isSome (source kind safe width : Byte) :
    (readRule source kind safe width).isSome = true ↔
      (readSource source).isSome = true ∧ (readKind kind).isSome = true ∧ (readFlag safe).isSome = true ∧
        (kind = 3 → width ≠ 0) := by
  unfold readRule
  split
  case h_1 hs hk hl =>
    split_ifs with hpulse
    · simp [hs, hl, (readKind_pulse_iff hk).1 hpulse.1, hpulse.2]
    · simpa [hs, hk, hl, readKind_pulse_iff hk] using hpulse
  case h_2 hnone =>
    simp only [Option.isSome_none, Bool.false_eq_true, false_iff]
    rintro ⟨hs, hk, hl, -⟩
    exact hnone _ _ _ (Option.some_get hs).symm (Option.some_get hk).symm (Option.some_get hl).symm

/-! ### The definition commands (R158, R162 to R167) -/

/-- Settles O10: the range test is the rule's; in range the nine settings and the mark are stored. -/
theorem setStationStores : Obligations.SetStationStores := by
  intro a n r kh kl p f ih il l q s hp hc
  have hm : messageOf (.setStation [a, n, r, kh, kl, p, f, ih, il, l, q]) = some (0x10, [a, n, r, kh, kl, p, f, ih, il, l, q]) := rfl
  have hrange : settingsInRange ⟨a, n, r, mkWord kh kl, p, f, mkWord ih il, l, q⟩ = true ↔
      a.toNat ≤ 31 ∧ 2 ≤ n.toNat ∧ n.toNat ≤ 32 ∧ r.toNat ≤ 3 ∧ 3 ≤ p.toNat ∧ p.toNat ≤ 8 ∧ f.toNat ≤ 15 ∧ l.toNat ≤ 15 ∧
        2 ≤ q.toNat ∧ q.toNat ≤ 15 := by
    simp only [settingsInRange, Bool.and_eq_true, decide_eq_true_eq, and_assoc]
  rw [← hrange]
  refine ⟨fun hin => exec_replies hm rfl hp (fun x => ?_) rfl, fun hout => exec_refuses hm rfl hp fun x => ?_⟩
  · exact (inConfig_of_config (s := setPort x s) hc _).trans (if_pos hin)
  · exact (inConfig_of_config (s := setPort x s) hc _).trans (if_neg hout)

theorem cmdSetCondition_eq {place mode policy held report t1 t0 : Byte} {terms : List Byte} {s : State}
    (hc : s.ctl.state = .config) (hl : terms.length ∈ [5, 10, 15, 20]) :
    cmdSetCondition (place :: mode :: policy :: held :: report :: t1 :: t0 :: terms) s =
      if place.toNat ≤ 15 then
        match readCondition mode policy held report t1 t0 terms with
        | some d => okPlain (setDef place.toNat (some d) s)
        | none => refuse .badOperand s
      else refuse .badOperand s := by
  have hlength : conditionLength (place :: mode :: policy :: held :: report :: t1 :: t0 :: terms).length = true := by
    simp only [conditionLength, List.length_cons, decide_eq_true_eq]
    simp only [List.mem_cons, List.not_mem_nil, or_false] at hl
    omega
  exact (if_pos hlength).trans (inConfig_of_config hc _)

/-- The bytes of SET-CONDITION are fewer than a message's 30. -/
theorem operandsFit_setCondition {place mode policy held report t1 t0 : Byte} {terms : List Byte}
    (hl : terms.length ∈ [5, 10, 15, 20]) :
    operandsFit (place :: mode :: policy :: held :: report :: t1 :: t0 :: terms) = true := by
  simp only [List.mem_cons, List.not_mem_nil, or_false] at hl
  refine decide_eq_true (?_ : _ ≤ 30)
  simp only [List.length_cons]
  omega

theorem exists_parts {terms : List Byte} (hl : terms.length ∈ [5, 10, 15, 20]) : ∃ n, terms.length = 5 * n := by
  simp only [List.mem_cons, List.not_mem_nil, or_false] at hl
  exact ⟨terms.length / 5, by omega⟩

/-- Settles O12: in range the definition read is stored, and its fields are the operands; out of range nothing is read. -/
theorem conditionDefinitions : Obligations.ConditionDefinitions := by
  refine ⟨fun place mode policy held report t1 t0 terms inRange s hp hc hl hrange => ?_, fun place s hp hc => ⟨?_, ?_⟩⟩
  · obtain ⟨n, hn⟩ := exists_parts hl
    have hread : inRange ↔ place.toNat ≤ 15 ∧ (readCondition mode policy held report t1 t0 terms).isSome = true := by
      rw [hrange, readCondition_isSome, readMode_isSome, readPolicy_isSome, readFlag_isSome, readFlag_isSome,
        readTerms_isSome hn]
      rfl
    have hm : messageOf (.setCondition (place :: mode :: policy :: held :: report :: t1 :: t0 :: terms)) = some (0x13, _) := rfl
    have hbody := fun x => cmdSetCondition_eq (place := place) (mode := mode) (policy := policy) (held := held)
      (report := report) (t1 := t1) (t0 := t0) (s := setPort x s) hc hl
    refine ⟨fun hin => ?stored, fun hout => ?refused⟩
    case stored =>
      obtain ⟨hplace, hsome⟩ := hread.1 hin
      obtain ⟨d, hd⟩ := Option.isSome_iff_exists.1 hsome
      obtain ⟨hmode, hpolicy, hheld, hreport, ht1, ht0, hterms⟩ := readCondition_eq_some hd
      refine ⟨d, exec_replies hm (operandsFit_setCondition hl) hp (fun x => (hbody x).trans ?_) rfl, readMode_eq_some hmode,
        readPolicy_eq_some hpolicy, (readFlag_eq_some hheld).1, (readFlag_eq_some hreport).1, ht1, ht0,
        readTerms_eq_some hn hterms⟩
      rw [if_pos hplace, hd]
      rfl
    case refused =>
      refine exec_refuses hm (operandsFit_setCondition hl) hp fun x => (hbody x).trans ?_
      split
      case isTrue hplace =>
        have hnone : readCondition mode policy held report t1 t0 terms = none :=
          Option.not_isSome_iff_eq_none.1 fun hsome => hout (hread.2 ⟨hplace, hsome⟩)
        rw [hnone]
      case isFalse => rfl
  · intro hplace
    exact exec_replies (c := .clearCondition [place]) rfl rfl hp
      (fun x => (inConfig_of_config (s := setPort x s) hc _).trans (if_pos hplace)) rfl
  · intro hplace
    exact exec_refuses (c := .clearCondition [place]) rfl rfl hp
      (fun x => (inConfig_of_config (s := setPort x s) hc _).trans (if_neg (Nat.not_le.2 hplace)))

theorem cmdSetOutput_eq {line source kind safe width : Byte} {s : State} (hc : s.ctl.state = .config) :
    cmdSetOutput [line, source, kind, safe, width] s =
      if line.toNat ≤ 15 then
        match readRule source kind safe width with
        | some r => okPlain (setRule line.toNat (some r) s)
        | none => refuse .badOperand s
      else refuse .badOperand s := inConfig_of_config hc _

/-- Settles O13: in range the rule read is stored, and its fields are the operands; SET-PERMIT takes every mask. -/
theorem outputAndPermitDefinitions : Obligations.OutputAndPermitDefinitions := by
  intro line source kind safe width inRange s hp hc hrange
  have hread : inRange ↔ line.toNat ≤ 15 ∧ (readRule source kind safe width).isSome = true := by
    rw [hrange, readRule_isSome, readSource_isSome, readKind_isSome, readFlag_isSome]
  have hm : messageOf (.setOutput [line, source, kind, safe, width]) = some (0x15, [line, source, kind, safe, width]) := rfl
  have hbody := fun x => cmdSetOutput_eq (line := line) (source := source) (kind := kind) (safe := safe) (width := width)
    (s := setPort x s) hc
  refine ⟨fun hin => ?stored, fun hout => ?refused, fun hline => ?cleared, fun hline => ?clearRefused, fun hi lo => ?permit⟩
  case stored =>
    obtain ⟨hline, hsome⟩ := hread.1 hin
    obtain ⟨r, hr⟩ := Option.isSome_iff_exists.1 hsome
    obtain ⟨hsource, hkind, hsafe, hwidth⟩ := readRule_eq_some hr
    refine ⟨r, exec_replies hm rfl hp (fun x => (hbody x).trans ?_) rfl, fun h => ?_, fun k hk => ?_,
      readKind_eq_some hkind, (readFlag_eq_some hsafe).1, hwidth⟩
    · rw [if_pos hline, hr]
      rfl
    · subst h
      exact (Option.some.inj hsource).symm
    · have hlow : source.toNat < 16 := hk ▸ k.isLt
      rw [readSource, dif_pos hlow] at hsource
      exact (Option.some.inj hsource).symm.trans (congrArg OutSource.cond (Fin.ext hk))
  case refused =>
    refine exec_refuses hm rfl hp fun x => (hbody x).trans ?_
    split
    case isTrue hline =>
      have hnone : readRule source kind safe width = none :=
        Option.not_isSome_iff_eq_none.1 fun hsome => hout (hread.2 ⟨hline, hsome⟩)
      rw [hnone]
    case isFalse => rfl
  case cleared =>
    exact exec_replies (c := .clearOutput [line]) rfl rfl hp
      (fun x => (inConfig_of_config (s := setPort x s) hc _).trans (if_pos hline)) rfl
  case clearRefused =>
    exact exec_refuses (c := .clearOutput [line]) rfl rfl hp
      (fun x => (inConfig_of_config (s := setPort x s) hc _).trans (if_neg (Nat.not_le.2 hline)))
  case permit =>
    exact exec_replies (c := .setPermit [hi, lo]) rfl rfl hp
      (fun x => inConfig_of_config (s := setPort x s) hc _) rfl

/-! ### READ-CONFIG (R168) -/

theorem exec_readConfig_settings {s : State} (hp : PortFree s) :
    exec (.readConfig [0, 0]) s = .next (withReply .ok ([0, 0, flagByte s.ctl.editedSet] ++ settingsBytes s.ctl.edited) s) :=
  exec_replies (c := .readConfig [0, 0]) rfl rfl hp (fun _ => rfl) rfl

/-- Settles O14: the body answers by the kind and index; the bytes read back are the bytes read. -/
theorem readConfigReadsBack : Obligations.ReadConfigReadsBack := by
  refine ⟨?reads, ?settings, ?condition, ?rule⟩
  case reads =>
    intro index s hp
    have hm : ∀ kind : Byte, messageOf (.readConfig [kind, index]) = some (0x20, [kind, index]) := fun _ => rfl
    refine ⟨fun h0 => ?_, fun e h he => ?_, fun h he => ?_, fun d h hd => ?_, fun h hd => ?_, fun r h hr => ?_, fun h hr => ?_,
      fun h0 => ?_, fun kind hout => ?_⟩
    · subst h0
      exact exec_readConfig_settings hp
    · refine exec_replies (hm 1) rfl hp (fun x => ?_) rfl
      exact (if_pos h).trans (by rw [setPort_mir, he]; rfl)
    · refine exec_replies (hm 1) rfl hp (fun x => ?_) rfl
      exact (if_pos h).trans (by rw [setPort_mir, he]; rfl)
    · refine exec_replies (hm 2) rfl hp (fun x => ?_) rfl
      exact (if_pos h).trans (by rw [setPort_cond, hd]; rfl)
    · refine exec_replies (hm 2) rfl hp (fun x => ?_) rfl
      exact (if_pos h).trans (by rw [setPort_cond, hd]; rfl)
    · refine exec_replies (hm 3) rfl hp (fun x => ?_) rfl
      exact (if_pos h).trans (by rw [setPort_out, hr]; rfl)
    · refine exec_replies (hm 3) rfl hp (fun x => ?_) rfl
      exact (if_pos h).trans (by rw [setPort_out, hr]; rfl)
    · subst h0
      exact exec_replies (hm 4) rfl hp (fun x => rfl) rfl
    · refine exec_refuses (hm kind) rfl hp fun x => ?_
      show cmdReadConfig [kind, index] _ = _
      unfold cmdReadConfig
      dsimp only
      split_ifs with h0 hi h1 hi h2 hi h3 hi h4 hi <;> first | rfl | (exfalso; revert hout; bv_omega)
  case settings =>
    intro a n r kh kl p f ih il l q s t u hp hc hset hreply hu
    obtain ⟨hstore, hrefuse⟩ := setStationStores a n r kh kl p f ih il l q s hp hc
    by_cases hin : a.toNat ≤ 31 ∧ 2 ≤ n.toNat ∧ n.toNat ≤ 32 ∧ r.toNat ≤ 3 ∧ 3 ≤ p.toNat ∧ p.toNat ≤ 8 ∧ f.toNat ≤ 15 ∧
        l.toNat ≤ 15 ∧ 2 ≤ q.toNat ∧ q.toNat ≤ 15
    · have hedited : u.ctl.editedSet = true ∧ settingsBytes u.ctl.edited = [a, n, r, kh, kl, p, f, ih, il, l, q] := by
        rw [hstore hin] at hset
        injection hset with hset
        subst hu hset
        simp [withReply, settingsBytes]
      have hfree : PortFree u := by rw [hu]; exact hp
      rw [exec_readConfig_settings hfree, hedited.1, hedited.2]
      rfl
    · rw [hrefuse hin] at hset
      injection hset with hset
      subst hset
      simp [withReply, statusCode] at hreply
  case condition =>
    intro mode policy held report t1 t0 terms d hl hd
    obtain ⟨n, hn⟩ := exists_parts hl
    obtain ⟨hmode, hpolicy, hheld, hreport, ht1, ht0, hterms⟩ := readCondition_eq_some hd
    have hcount : d.terms.length = terms.length / 5 := by rw [readTerms_length _ _ hterms]; omega
    rw [conditionBytes, readMode_eq_some hmode, readPolicy_eq_some hpolicy, (readFlag_eq_some hheld).2,
      (readFlag_eq_some hreport).2, ht1, ht0, hcount, readTerms_eq_some hn hterms]
  case rule =>
    intro source kind safe width r hr
    obtain ⟨hsource, hkind, hsafe, hwidth⟩ := readRule_eq_some hr
    rw [ruleBytes, readSource_eq_some hsource, readKind_eq_some hkind, (readFlag_eq_some hsafe).2, hwidth]

end Sys2Proof.Machine

/-! PROOF. The checks of a message before its effect (R147, R154, R157, R177): the code, the operand count, the station state. -/

namespace Sys2Proof.Machine

/-! ### The operand count (R154, R178) -/

theorem conditionLength_iff (n : Nat) : conditionLength n = true ↔ n ∈ [12, 17, 22, 27] := by simp [conditionLength]

theorem cmdSetCondition_badLength {ops : List Byte} (s : State) (h : ops.length ∉ [12, 17, 22, 27]) :
    cmdSetCondition ops s = refuse .badLength s := by
  unfold cmdSetCondition
  split
  · exact if_neg fun hfit => h ((conditionLength_iff _).1 hfit)
  · rfl

/-- A command with an operand count that is not its own refuses, whatever the state (R154). -/
theorem body_badLength {code : Byte} {counts : List Nat} {ops : List Byte} (s : State) (hcode : (code, counts) ∈ commandForms)
    (h : ops.length ∉ counts) : bodyOf (decodeMessage code ops) s = refuse .badLength s := by
  simp only [commandForms, List.mem_cons, Prod.mk.injEq, List.not_mem_nil, or_false] at hcode
  rcases hcode with hc | hc | hc | hc | hc | hc | hc | hc | hc | hc | hc | hc | hc | hc | hc | hc | hc | hc | hc | hc | hc |
    hc | hc | hc | hc | hc | hc | hc <;> obtain ⟨rfl, rfl⟩ := hc
  case inr.inr.inr.inl => exact cmdSetCondition_badLength s h
  all_goals
    simp only [decodeMessage, bodyOf, BitVec.reduceEq, if_true, if_false]
    simp only [cmdSetStation, cmdSetEntry, cmdClearEntry, cmdClearCondition, cmdSetOutput, cmdClearOutput, cmdSetPermit,
      cmdCommit, cmdReadConfig, cmdGetStatus, cmdReadParameter, cmdWriteParameter, cmdClearCounters, cmdTakeEvent,
      cmdReconfigure, cmdRestart, cmdHold, cmdResume, cmdWritePoint, cmdReadPoints, cmdReadEntry, cmdReadConditions,
      cmdReadOutputs, cmdSetOutputs, cmdUnlatch, cmdQuery, cmdTakeAnswer]
    split
    · exact absurd List.mem_cons_self h
    · rfl

/-! ### The station state (R157, R177) -/

theorem inConfig_of_running {s : State} (h : Running s) (r : Result) : inConfig s r = refuse .wrongState s := if_neg h

theorem whenRunning_of_config {s : State} (h : s.ctl.state = .config) (r : Result) :
    whenRunning s r = refuse .wrongState s := if_pos h

/-- Operands of one of a command's own counts, written out. -/
theorem exists_operands {ops : List Byte} {counts : List Nat} (h : ops.length ∈ counts) :
    ∃ n ∈ counts, ∃ f : Nat → Byte, ops = (List.range n).map f := by
  refine ⟨ops.length, h, fun i => ops.getD i 0, List.ext_getElem (by simp) fun i hi _ => ?_⟩
  simp [hi]

/-- A configuration command outside CONFIG refuses (R157). -/
theorem body_notConfig {code : Byte} {counts : List Nat} {ops : List Byte} {s : State} (hcode : (code, counts) ∈ commandForms)
    (h : ops.length ∈ counts) (hconfig : code ∈ configCodes) (hr : Running s) :
    bodyOf (decodeMessage code ops) s = refuse .wrongState s := by
  obtain ⟨n, hn, f, rfl⟩ := exists_operands h
  simp only [configCodes, List.mem_cons, List.not_mem_nil, or_false] at hconfig
  rcases hconfig with rfl | rfl | rfl | rfl | rfl | rfl | rfl | rfl | rfl <;> simp [commandForms] at hcode <;> subst hcode
  case inr.inr.inr.inl =>
    simp only [List.mem_cons, List.not_mem_nil, or_false] at hn
    rcases hn with rfl | rfl | rfl | rfl <;> exact inConfig_of_running hr _
  all_goals
    obtain rfl := List.mem_singleton.1 hn
    exact inConfig_of_running hr _

/-- A station or run-time command in CONFIG refuses (R177). -/
theorem body_inConfig {code : Byte} {counts : List Nat} {ops : List Byte} {s : State} (hcode : (code, counts) ∈ commandForms)
    (h : ops.length ∈ counts) (hrunning : code ∈ runningCodes) (hc : s.ctl.state = .config) :
    bodyOf (decodeMessage code ops) s = refuse .wrongState s := by
  obtain ⟨n, hn, f, rfl⟩ := exists_operands h
  simp only [runningCodes, List.mem_cons, List.not_mem_nil, or_false] at hrunning
  rcases hrunning with rfl | rfl | rfl | rfl | rfl | rfl | rfl | rfl | rfl | rfl | rfl | rfl | rfl <;>
    simp [commandForms] at hcode <;> subst hcode
  all_goals
    obtain rfl := List.mem_singleton.1 hn
    exact whenRunning_of_config hc _

/-- The operand counts of Fig. 21 fit a message. -/
theorem operandsFit_of_form {code : Byte} {counts : List Nat} {ops : List Byte} (hcode : (code, counts) ∈ commandForms)
    (h : ops.length ∈ counts) : operandsFit ops = true := by
  have hshort : ∀ form ∈ commandForms, ∀ n ∈ form.2, n ≤ 30 := by decide
  exact decide_eq_true (hshort _ hcode _ h)

/-- Settles O9: each refusal is the body's own, by the code, the count and the station state. -/
theorem messagesRefused : Obligations.MessagesRefused := by
  refine ⟨fun code ops s hcode hf hp => ?unknown, fun c code counts ops s hm hcode hp => ⟨fun h hf => ?length, fun h hstate => ?state⟩⟩
  case unknown =>
    refine exec_refuses (c := .badCommand code ops) rfl hf hp fun p => ?_
    rw [Laws.MessageDecoding.unknown hcode]
    rfl
  case length => exact exec_refuses hm hf hp fun p => body_badLength _ hcode h
  case state =>
    refine exec_refuses hm (operandsFit_of_form hcode h) hp fun p => ?_
    rcases hstate with ⟨hconfig, hr⟩ | ⟨hrunning, hc⟩
    · exact body_notConfig hcode h hconfig hr
    · exact body_inConfig hcode h hrunning hc

/-! ### TAKE-ANSWER (R138) -/

theorem tagOf_setWidth (x : BitVec 4) : tagOf (x.setWidth 8) = x := by
  apply BitVec.eq_of_getLsbD_eq
  intro i hi
  have h8 : i < 8 := by omega
  simp [tagOf, hi, h8]

theorem setWidth_tagOf {tag : Byte} (h : tag.toNat ≤ 15) : (tagOf tag).setWidth 8 = tag := by
  apply BitVec.eq_of_toNat_eq
  simp only [tagOf, BitVec.toNat_setWidth, BitVec.extractLsb'_toNat, Nat.shiftRight_zero]
  omega

/-- A query holds the tag of an operand exactly when its tag widened is the operand. -/
theorem tag_eq_iff {tag : Byte} (h : tag.toNat ≤ 15) (x : BitVec 4) : x = tagOf tag ↔ x.setWidth 8 = tag := by
  constructor
  · rintro rfl
    exact setWidth_tagOf h
  · rintro rfl
    exact (tagOf_setWidth x).symm

theorem setWidth_tag_le (x : BitVec 4) : (x.setWidth 8).toNat ≤ 15 := by
  have h := x.isLt
  rw [BitVec.toNat_setWidth]
  omega

/-- The query that holds the tag is found behind those that do not, and is the one that is erased. -/
theorem find_and_erase {tag : Byte} (h : tag.toNat ≤ 15) {before after : List Query} {q : Query}
    (hbefore : ∀ x ∈ before, x.tag.setWidth 8 ≠ tag) (hq : q.tag.setWidth 8 = tag) :
    (before ++ q :: after).find? (fun x => decide (x.tag = tagOf tag)) = some q ∧
      (before ++ q :: after).eraseP (fun x => decide (x.tag = tagOf tag)) = before ++ after := by
  have hmiss : ∀ x ∈ before, ¬ decide (x.tag = tagOf tag) = true := fun x hx => by simpa [tag_eq_iff h] using hbefore x hx
  have hhit : q.tag = tagOf tag := (tag_eq_iff h q.tag).2 hq
  constructor
  · simp [List.find?_append, List.find?_eq_none.2 hmiss, hhit]
  · simp [List.eraseP_append_right _ hmiss, hhit]

theorem cmdTakeAnswer_found {tag : Byte} {q : Query} {s : State} (hr : Running s) (h : tag.toNat ≤ 15)
    (hq : s.qry.queries.find? (fun x => decide (x.tag = tagOf tag)) = some q) :
    cmdTakeAnswer [tag] s =
      if q.state = .done then
        okWith ([outcomeCode (q.outcome.getD .ok)] ++ wordBytes q.result ++ [q.target, q.index])
          (setQueries (s.qry.queries.eraseP fun x => decide (x.tag = tagOf tag)) s)
      else refuse .notReady s := by
  simp only [cmdTakeAnswer, whenRunning_of_running hr, h, if_true, hq]

theorem cmdTakeAnswer_notFound {tag : Byte} {s : State} (hr : Running s) (h : tag.toNat ≤ 15)
    (hq : s.qry.queries.find? (fun x => decide (x.tag = tagOf tag)) = none) : cmdTakeAnswer [tag] s = refuse .notFound s := by
  simp only [cmdTakeAnswer, whenRunning_of_running hr, h, if_true, hq]

/-- Settles O30: the first query with the tag decides; without one, or with the tag out of range, nothing changes. -/
theorem takeAnswerFrees : Obligations.TakeAnswerFrees := by
  intro tag s hp hr
  have hm : messageOf (.takeAnswer [tag]) = some (0x48, [tag]) := rfl
  refine ⟨fun before q after o hqueries hbefore hq hdone ho => ?done, fun before q after hqueries hbefore hq hopen => ?notReady,
    fun h hnone => ?notFound, fun h => ?refused⟩
  case done =>
    have h : tag.toNat ≤ 15 := hq ▸ setWidth_tag_le q.tag
    obtain ⟨hfind, herase⟩ := find_and_erase (after := after) h hbefore hq
    refine exec_replies hm rfl hp (fun p => ?_) rfl
    refine (cmdTakeAnswer_found (s := setPort p s) hr h (by rw [setPort_qry, hqueries, hfind])).trans ?_
    rw [if_pos hdone, ho, setPort_qry, hqueries, herase]
    rfl
  case notReady =>
    have h : tag.toNat ≤ 15 := hq ▸ setWidth_tag_le q.tag
    obtain ⟨hfind, -⟩ := find_and_erase (after := after) h hbefore hq
    refine exec_refuses hm rfl hp fun p => ?_
    exact (cmdTakeAnswer_found (s := setPort p s) hr h (by rw [setPort_qry, hqueries, hfind])).trans (if_neg hopen)
  case notFound =>
    refine exec_refuses hm rfl hp fun p => cmdTakeAnswer_notFound (s := setPort p s) hr h ?_
    refine List.find?_eq_none.2 fun x hx => ?_
    simpa [tag_eq_iff h] using hnone x hx
  case refused =>
    refine exec_refuses hm rfl hp fun p => ?_
    exact (whenRunning_of_running (s := setPort p s) hr _).trans (if_neg (Nat.not_le.2 h))

end Sys2Proof.Machine

/-! PROOF. HOLD, RESUME, RESTART and RECONFIGURE at a free port or held while an own frame lasts (R35 to R38, R148, R152), and the
commands that set the output lines (R115, R116). -/

namespace Sys2Proof.Machine

/-! ### A reply over a state that is not written out -/

/-- A body that answers and leaves the port alone has its reply placed over the state it leaves. -/
theorem exec_replied {c : Instr} {code : Byte} {ops data : List Byte} {st : Status} {s : State} {u : HostPort → State}
    (hm : messageOf c = some (code, ops)) (hf : operandsFit ops = true) (hp : PortFree s)
    (hb : ∀ p, bodyOf (decodeMessage code ops) (setPort p s) = (some ⟨st, data⟩, u p)) (hport : ∀ p, (u p).port = p) :
    ∃ p, exec c s = .next (setPort (withReply st data s).port (u p)) := by
  refine ⟨(beginExecution (code :: BitVec.ofNat 8 ops.length :: ops) s).port, ?_⟩
  rw [exec_body c code ops s hm hf hp, execute_reply _ _ s _ st data hp (hb _) (hport _)]
  rfl

/-! The statements about a change of state say nothing of the port on either side. -/

theorem DriveTaken.setPort {named : List Notice} {p q : HostPort} {s t : State} (h : DriveTaken named (setPort p s) t) :
    DriveTaken named s (Machine.setPort q t) := ⟨h.mode, h.out, h.pts, h.cond⟩

theorem DriveOnly.setPort {p q : HostPort} {s t : State} (h : DriveOnly (setPort p s) t) : DriveOnly s (Machine.setPort q t) :=
  ⟨h.out, h.pts, h.points, h.cond⟩

theorem Restarted.setPort {p q : HostPort} {s t : State} (h : Restarted (setPort p s) t) : Restarted s (Machine.setPort q t) where
  ctl := h.ctl
  line := h.line
  mir := h.mir
  qry := h.qry
  drive hs hr := (h.drive hs hr).setPort
  kept := h.kept.setPort
  events := h.events
  rest := h.rest

theorem Reconfigured.setPort {p q : HostPort} {s t : State} (h : Reconfigured (setPort p s) t) :
    Reconfigured s (Machine.setPort q t) := ⟨h.ctl, h.line, h.mir, h.qry, h.cond, h.out, h.pts, h.events, h.rest⟩

/-! ### HOLD and RESUME (R38) -/

/-- Settles O22: the change of the hold reasons, its drive mode and its record. -/
theorem holdAndResume : Obligations.HoldAndResume := by
  intro b s hp hr hs
  have hm : messageOf (if b then .hold [] else .resume []) = some (if b then 0x32 else 0x33, []) := by cases b <;> rfl
  have hderive : s.ctl.driveMode = deriveMode s.ctl.state s.ctl.holds := hs.2.1
  have hholds (p : HostPort) : (setHolds ⟨b, s.ctl.holds.lone⟩ (setPort p s)).ctl =
      { s.ctl with holds := ⟨b, s.ctl.holds.lone⟩, driveMode := deriveMode s.ctl.state ⟨b, s.ctl.holds.lone⟩ } := by
    rw [setHolds_ctl]
    by_cases hh : (⟨b, s.ctl.holds.lone⟩ : HoldReasons) = s.ctl.holds
    · simp [hh, hderive]
    · simp [hh]
  have hbody (p : HostPort) : bodyOf (decodeMessage (if b then 0x32 else 0x33) []) (setPort p s) =
      (some ⟨.ok, [holdByte ⟨b, s.ctl.holds.lone⟩]⟩, setHolds ⟨b, s.ctl.holds.lone⟩ (setPort p s)) := by
    have hchange : bodyOf (decodeMessage (if b then 0x32 else 0x33) []) (setPort p s) =
        changeHost b (setPort p s) := by cases b <;> exact whenRunning_of_running (s := setPort p s) hr _
    rw [hchange, changeHost]
    simp only [setPort_ctl, hholds]
    rfl
  obtain ⟨p, hexec⟩ := exec_replied hm rfl hp hbody (by simp)
  refine ⟨_, _, rfl, hexec, hholds p, rfl, DriveTaken.setPort (p := p) ?_, ?_, ?_⟩
  · exact setHolds_taken _ hs hr hr rfl rfl (by simp) rfl hderive
  · exact setHolds_recorded _ (setPort p s)
  · simp

/-! ### RESTART and RECONFIGURE (R35, R36) -/

theorem lineAfterLeaving_rx (s : State) : (lineAfterLeaving s).rx = s.line.rx := by
  unfold lineAfterLeaving
  split
  · dsimp only
    split <;> rfl
  · rfl

theorem take_two_set {α : Type} {l : List α} {x a : α} (hl : 2 ≤ l.length) (ha : l[0]? = some a) :
    (l.set 1 x).take 2 = [a, x] := by
  match l, hl, ha with
  | [_], hl, _ => simp at hl
  | _ :: _ :: _, _, ha => simpa using ha

theorem reconfigureNow_pts {s : State} (hs : PinsSound s) :
    (reconfigureNow s).pts = { s.pts with
      driveMode := .safe
      points := [pointAt s 0, ⟨safeLevels s.out.active, .good⟩, ⟨0, .held⟩] ++ List.replicate 5 ⟨0, .held⟩ } := by
  obtain ⟨hlength, -, -, -, -, -, hpoint1, -⟩ := hs
  obtain ⟨g, hg, hout, hpts⟩ : ∃ g, reconfigureCleared s = clearPoints .held (parkOutputs g) ∧ g.out = s.out ∧
      g.pts = { s.pts with driveMode := .safe } := ⟨_, rfl, by simp, by simp⟩
  have hpoints : g.pts.points = s.pts.points := by rw [hpts]
  have hpins : (setPins (setOut { g.out with parked := safeLevels g.out.active, mode := .config } g)).pts =
      { s.pts with
        driveMode := .safe, points := s.pts.points.set 1 ⟨safeLevels s.out.active, .good⟩ } := by
    rw [setPins_pts, setOut_pts, hpts, setOut_out, hout]
    · rfl
    · rw [setOut_out, hout, ← hpoint1]
      exact pointAt_congr hpoints 1
  have hfirst : s.pts.points[0]? = some (pointAt s 0) := by
    rw [pointAt, List.getElem?_eq_getElem (by omega)]
    rfl
  rw [(reconfigureNow_frame s).2.2.2.2.2.2.2.2.2.2.2.1, hg]
  simp only [clearPoints, setPts_pts, parkOutputs, setOut_pts, hpins]
  rw [take_two_set (by omega) hfirst]
  rfl

theorem reconfigureNow_reconfigured {s : State} (hs : PinsSound s) : Reconfigured s (reconfigureNow s) where
  ctl := by simp [HoldReasons.empty]
  line := by simp [lineOff, lineAfterLeaving_rx]
  mir := (reconfigureNow_frame s).2.2.2.2.2.1
  qry := by simp
  cond := by simp [clearResults]
  out := by simp [startRules]
  pts := by rw [reconfigureNow_pts hs]; simp [startRules]
  events := reconfigureNow_recorded s
  rest := by simp

theorem cmdRestart_made {s : State} (hr : Running s) (htx : txSending s = false) :
    cmdRestart [] s = (some ⟨.ok, []⟩, restartNow s) := by
  have hsending : ¬ txSending s = true := by simp [htx]
  exact (whenRunning_of_running hr _).trans (if_neg hsending)

theorem cmdReconfigure_made {s : State} (hr : Running s) (htx : txSending s = false) :
    cmdReconfigure [] s = (some ⟨.ok, []⟩, reconfigureNow s) := by
  have hsending : ¬ txSending s = true := by simp [htx]
  exact (whenRunning_of_running hr _).trans (if_neg hsending)

/-- Settles O23: the body makes the restart at once. -/
theorem restartEffect : Obligations.RestartEffect := by
  intro s hp hr htx
  obtain ⟨p, hexec⟩ := exec_replied (c := .restart []) rfl rfl hp (fun p => cmdRestart_made (s := setPort p s) hr htx) (by simp)
  exact ⟨_, hexec, (restartNow_restarted (setPort p s)).setPort, rfl⟩

/-- Settles O24: the body makes the reconfiguration at once. -/
theorem reconfigureEffect : Obligations.ReconfigureEffect := by
  intro s hp hr htx hs
  obtain ⟨p, hexec⟩ := exec_replied (c := .reconfigure []) rfl rfl hp
    (fun p => cmdReconfigure_made (s := setPort p s) hr htx) (by simp)
  exact ⟨_, hexec, (reconfigureNow_reconfigured (s := setPort p s) hs).setPort, rfl⟩

/-! ### A held command (R37, R148, R152) -/

theorem execute_held {m : List Byte} {body : State → Result} {s t : State}
    (hb : body (beginExecution m s) = (none, t)) : execute m body s = t := by rw [execute, hb]

theorem endPort_kept {r : Reply} {p : HostPort} (h : p.discard = false) :
    endPort r p = { p with phase := .replying, buf := [], len := none, reply := replyBytes r, pos := 0 } := by
  simp [endPort, h]

theorem endPort_discarded {r : Reply} {p : HostPort} (h : p.discard = true) :
    endPort r p = { p with phase := .ready, buf := [], len := none, reply := [], pos := 0, discard := false } := by
  simp [endPort, h, emptyBuffers]

theorem exec_heldCommandRelease {c : HeldCommand} {s : State} (hheld : s.ctl.held = some c) :
    exec .heldCommandRelease s = .next (if txSending s then s
      else endExecution ⟨.ok, []⟩ (makeHeld c (setCtl { s.ctl with held := none } s))) := by
  simp only [exec, execHeldCommandRelease, hheld]

theorem makeHeld_port (c : HeldCommand) (s : State) : (makeHeld c s).port = s.port := by cases c <;> simp [makeHeld]

/-- Settles O25: the body holds the command while the frame lasts; the release makes it and ends the execution. -/
theorem heldCommandWaits : Obligations.HeldCommandWaits := by
  refine ⟨fun s hp hr htx => ⟨?restart, ?reconfigure⟩, fun c s hheld htx => ?waits, fun c s hheld htx hs => ?made⟩
  case restart =>
    rw [exec_body (.restart []) 0x31 [] s rfl rfl hp]
    exact congrArg _ (execute_held ((whenRunning_of_running (s := beginExecution _ s) hr _).trans (if_pos htx)))
  case reconfigure =>
    rw [exec_body (.reconfigure []) 0x30 [] s rfl rfl hp]
    exact congrArg _ (execute_held ((whenRunning_of_running (s := beginExecution _ s) hr _).trans (if_pos htx)))
  case waits => rw [exec_heldCommandRelease hheld, if_pos htx]
  case made =>
    have hsending : ¬ txSending s = true := by simp [htx]
    have hport : (makeHeld c (setCtl { s.ctl with held := none } s)).port = s.port := makeHeld_port c _
    rw [exec_heldCommandRelease hheld, if_neg hsending]
    refine ⟨_, rfl, ?_, ?_, fun hkept => ?_, fun hdiscard => ?_⟩
    · rintro rfl
      exact (restartNow_restarted (setPort s.port { s with ctl := { s.ctl with held := none } })).setPort
    · rintro rfl
      exact (reconfigureNow_reconfigured (s := setPort s.port { s with ctl := { s.ctl with held := none } }) hs).setPort
    · exact (congrArg _ hport).trans (endPort_kept hkept)
    · exact (congrArg _ hport).trans (endPort_discarded hdiscard)

/-! ### The pins set anew (R48, R56, R112) -/

theorem shownPins_pins (o : OutUnit) (p : Word) : shownPins { o with pins := p } = shownPins o := rfl

theorem notify_only (n : Notice) (s : State) : ∃ cond, notify n s = { s with cond := cond } := by
  unfold notify
  split
  · exact ⟨s.cond, rfl⟩
  · exact ⟨_, rfl⟩

theorem changePoint_only (i : Nat) (p : Point) (n : Notice) (s : State) :
    ∃ pts cond, changePoint i p n s = { s with pts := pts, cond := cond } := by
  unfold changePoint
  split
  · exact ⟨s.pts, s.cond, rfl⟩
  · obtain ⟨cond, hcond⟩ := notify_only n (storePoint i p s)
    exact ⟨_, cond, hcond⟩

/-- Setting the pins of a changed output unit changes the output, point and condition units only. -/
theorem setPins_frame_of_out (o : OutUnit) (s : State) :
    ∃ pts cond, setPins (setOut o s) = { s with out := { o with pins := shownPins o }, pts := pts, cond := cond } := by
  by_cases h : shownPins o = o.pins
  · refine ⟨s.pts, s.cond, (if_pos h).trans ?_⟩
    rw [h]
    rfl
  · obtain ⟨pts, cond, hchange⟩ := changePoint_only 1 ⟨shownPins o, .good⟩ (.point 1)
      (setOut { o with pins := shownPins o } (setOut o s))
    exact ⟨pts, cond, (if_neg h).trans hchange⟩

/-- Where point 1 showed the pins before, it shows the new ones, announced once exactly when they differ. -/
theorem setPins_point1 {o : OutUnit} {s : State} (hr : Running s) (hpins : o.pins = s.out.pins)
    (h1 : pointAt s 1 = ⟨s.out.pins, .good⟩) :
    (setPins (setOut o s)).pts = { s.pts with points := s.pts.points.set 1 ⟨shownPins o, .good⟩ } ∧
      (setPins (setOut o s)).cond = { s.cond with
        notices := s.cond.notices ++ if shownPins o = s.out.pins then [] else [.point 1] } := by
  have hpoint : pointAt (setOut o s) 1 = ⟨(setOut o s).out.pins, .good⟩ := by rw [setOut_out, hpins]; exact h1
  have hrun : ¬ (setOut o s).ctl.state = .config := hr
  refine ⟨setPins_pts hpoint, (setPins_cond hpoint).trans ?_⟩
  simp only [hrun, or_false, setOut_out, hpins, setOut_cond]
  split <;> simp

end Sys2Proof.Machine

/-! PROOF. SET-OUTPUTS, UNLATCH and the pulse timer's expiry (R48, R56, R108, R115, R116), and the input filter (R45, R46). -/

namespace Sys2Proof.Machine

/-! ### SET-OUTPUTS and UNLATCH (R115, R116) -/

/-- A mask lies within the lines of a word exactly when each of its bits does. -/
theorem and_not_wordOf_eq_zero_iff (mask : Word) (f : Nat → Bool) :
    mask &&& ~~~(wordOf f) = 0 ↔ ∀ i < 16, bitOf mask i = true → f i = true := by
  rw [← not_iff_not, ← ne_eq, word_ne_zero_iff]
  push Not
  refine exists_congr fun i => and_congr_right fun hi => ?_
  simp [bitOf_not, hi]

/-- A command that leaves the output unit `o` with its pins shown anew: the other blocks stand, but for point 1 and its notice. -/
theorem setPins_replied {o : OutUnit} {s : State} (p q : HostPort) (hr : Running s) (hpins : o.pins = s.out.pins) :
    ∃ t, setPort q (setPins (setOut o (setPort p s))) = t ∧ t.port = q ∧ t.out = { o with pins := shownPins o } ∧
      (pointAt s 1 = ⟨s.out.pins, .good⟩ → s.pts.points.length = 8 →
        t.pts = { s.pts with points := s.pts.points.set 1 ⟨t.out.pins, .good⟩ } ∧
        t.cond = { s.cond with notices := s.cond.notices ++ pinNotice s t }) ∧
      t = { s with out := t.out, pts := t.pts, cond := t.cond, port := t.port } := by
  obtain ⟨pts, cond, hset⟩ := setPins_frame_of_out o (setPort p s)
  refine ⟨_, rfl, rfl, ?_, fun h1 _ => ?_, ?_⟩
  · rw [hset]; rfl
  · obtain ⟨hpts, hcond⟩ := setPins_point1 (s := setPort p s) hr hpins h1
    rw [hset] at hpts hcond ⊢
    exact ⟨hpts, hcond⟩
  · rw [hset]; rfl

theorem cmdSetOutputs_accepted {mh ml lh ll : Byte} {s : State} (hr : Running s)
    (h : ∀ i < 16, bitOf (mkWord mh ml) i = true → isHostLine s.out.active i = true) :
    cmdSetOutputs [mh, ml, lh, ll] s = okPlain (writeHostLevels (mkWord mh ml) (mkWord lh ll) s) :=
  (whenRunning_of_running hr _).trans (if_pos ((and_not_wordOf_eq_zero_iff _ _).2 h))

theorem cmdUnlatch_accepted {mh ml : Byte} {s : State} (hr : Running s)
    (h : ∀ i < 16, bitOf (mkWord mh ml) i = true → isKindLine s.out.active .latch i = true) :
    cmdUnlatch [mh, ml] s =
      (some ⟨if mkWord mh ml &&& sourceTrue s.out = 0 then .ok else .stillActive,
          wordBytes (mkWord mh ml &&& s.out.latched &&& ~~~(sourceTrue s.out)) ++ wordBytes (mkWord mh ml &&& sourceTrue s.out)⟩,
        clearLatched (mkWord mh ml &&& s.out.latched &&& ~~~(sourceTrue s.out)) s) :=
  (whenRunning_of_running hr _).trans (if_pos ((and_not_wordOf_eq_zero_iff _ _).2 h))

theorem not_and_not_wordOf_eq_zero {mask : Word} {f : Nat → Bool} (h : ∃ i < 16, bitOf mask i = true ∧ f i = false) :
    ¬ mask &&& ~~~(wordOf f) = 0 := by
  rw [and_not_wordOf_eq_zero_iff]
  obtain ⟨i, hi, hbit, hf⟩ := h
  intro hall
  rw [hall i hi hbit] at hf
  cases hf

/-- Settles O28: the mask test is the rule's, the words written are read bit by bit, and the pins are set anew. -/
theorem outputCommands : Obligations.OutputCommands := by
  refine ⟨fun mh ml lh ll s hp hr => ⟨fun hmask => ?levels, fun hmask => ?levelsRefused⟩,
    fun mh ml s hp hr => ⟨fun hmask => ?unlatch, fun hmask => ?unlatchRefused⟩⟩
  case levels =>
    obtain ⟨p, hexec⟩ := exec_replied (c := .setOutputs [mh, ml, lh, ll]) rfl rfl hp
      (fun p => cmdSetOutputs_accepted (s := setPort p s) hr hmask) (by simp [writeHostLevels])
    obtain ⟨t, ht, hport, hout, hpoint1, honly⟩ := setPins_replied (s := s)
      (o := { s.out with hostLevel := (s.out.hostLevel &&& ~~~(mkWord mh ml)) ||| (mkWord lh ll &&& mkWord mh ml) })
      p (withReply .ok [] s).port hr rfl
    refine ⟨t, hexec.trans (congrArg _ ht), ?_, fun i hi => ?_, hport, hpoint1, honly⟩
    · rw [hout]; rfl
    · rw [hout]
      cases hbit : bitOf (mkWord mh ml) i <;> simp [bitOf_not, hi, hbit]
  case levelsRefused =>
    refine exec_refuses (c := .setOutputs [mh, ml, lh, ll]) rfl rfl hp fun p => ?_
    exact (whenRunning_of_running (s := setPort p s) hr _).trans (if_neg (not_and_not_wordOf_eq_zero hmask))
  case unlatch =>
    obtain ⟨p, hexec⟩ := exec_replied (c := .unlatch [mh, ml]) rfl rfl hp
      (st := if mkWord mh ml &&& sourceTrue s.out = 0 then .ok else .stillActive)
      (data := wordBytes (mkWord mh ml &&& s.out.latched &&& ~~~(sourceTrue s.out)) ++ wordBytes (mkWord mh ml &&& sourceTrue s.out))
      (u := fun p => clearLatched (mkWord mh ml &&& s.out.latched &&& ~~~(sourceTrue s.out)) (setPort p s))
      (fun p => cmdUnlatch_accepted (s := setPort p s) hr hmask) (by simp [clearLatched])
    obtain ⟨t, ht, hport, hout, hpoint1, honly⟩ := setPins_replied (s := s)
      (o := { s.out with
        latched := s.out.latched &&& ~~~(mkWord mh ml &&& s.out.latched &&& ~~~(sourceTrue s.out))
        level := s.out.level &&& ~~~(mkWord mh ml &&& s.out.latched &&& ~~~(sourceTrue s.out)) }) p
      (withReply (if mkWord mh ml &&& sourceTrue s.out = 0 then .ok else .stillActive)
        (wordBytes (mkWord mh ml &&& s.out.latched &&& ~~~(sourceTrue s.out)) ++
          wordBytes (mkWord mh ml &&& sourceTrue s.out)) s).port hr rfl
    refine ⟨t, mkWord mh ml &&& s.out.latched &&& ~~~(sourceTrue s.out), mkWord mh ml &&& sourceTrue s.out,
      hexec.trans (congrArg _ ht), fun i _ => bitOf_and .., fun i hi => ?_, hport, ?_, fun i hi => ?_, hpoint1, honly⟩
    · simp [bitOf_not, hi]
    · rw [hout]; rfl
    · rw [hout]
      exact ⟨by rw [bitOf_and, bitOf_not _ _ hi], by rw [bitOf_and, bitOf_not _ _ hi]⟩
  case unlatchRefused =>
    refine exec_refuses (c := .unlatch [mh, ml]) rfl rfl hp fun p => ?_
    exact (whenRunning_of_running (s := setPort p s) hr _).trans (if_neg (not_and_not_wordOf_eq_zero hmask))

/-! ### The pulse timer (R108) -/

/-- Settles O50: a running timer's line goes to 0 and the pins are set anew. -/
theorem pulseTimerExpires : Obligations.PulseTimerExpires := by
  intro i s
  refine ⟨fun hidle => ?idle, fun b n hrunning _ h1 => ?running⟩
  case idle => simp only [exec, execPulseExpiry, expirePulse, hidle]
  case running =>
    have hexec : exec (.pulseExpiry i) s = .next (setPins (setOut { s.out with
        level := putBit s.out.level i.val false, pulse := s.out.pulse.set i.val .idle } s)) := by
      simp only [exec, execPulseExpiry, expirePulse, hrunning]
    obtain ⟨pts, cond, hset⟩ := setPins_frame_of_out { s.out with
      level := putBit s.out.level i.val false, pulse := s.out.pulse.set i.val .idle } s
    have hpts := setPins_pts (s := setOut { s.out with
      level := putBit s.out.level i.val false, pulse := s.out.pulse.set i.val .idle } s) h1
    have hcond := setPins_cond (s := setOut { s.out with
      level := putBit s.out.level i.val false, pulse := s.out.pulse.set i.val .idle } s) h1
    rw [hset] at hexec hpts hcond
    refine ⟨_, hexec, rfl, rfl, ?_⟩
    obtain rfl : pts = _ := hpts
    obtain rfl : cond = _ := hcond
    rfl

end Sys2Proof.Machine

/-! PROOF. The input filter (R45, R46, R56): point 0 formed anew, a changed raw level against its filter timer, and the filter timers
that run out at one tick. -/

namespace Sys2Proof.Machine

/-! ### Point 0 (R46, R56) -/

/-- A change of a point, whole: the record stored, and announced when it differs outside CONFIG. -/
theorem changePoint_eq (i : Nat) (p : Point) (n : Notice) (s : State) :
    changePoint i p n s = { s with
      pts := { s.pts with points := s.pts.points.set i p }
      cond := { s.cond with
        notices := if pointAt s i = p ∨ s.ctl.state = .config then s.cond.notices else s.cond.notices ++ [n] } } := by
  obtain ⟨pts, cond, h⟩ := changePoint_only i p n s
  have hpts := changePoint_pts i p n s
  have hcond := changePoint_cond i p n s
  rw [h] at hpts hcond ⊢
  obtain rfl : pts = _ := hpts
  obtain rfl : cond = _ := hcond
  rfl

/-! ### One line's raw level (R45) -/

/-- The station with the raw level of a line changed. -/
def rawChanged (i : Nat) (level : Bool) (s : State) : State := setPts { s.pts with raw := putBit s.pts.raw i level } s

theorem exec_inputChange_of_ne {line : Fin 16} {level : Bool} {s : State} (h : bitOf s.pts.raw line.val ≠ level) :
    exec (.inputChange line level) s =
      .next (inputChanged line.val level (rawChanged line.val level s)) := by
  simp only [exec, execInputChange, if_neg (Ne.symm h), rawChanged]

theorem inputChanged_back {i : Nat} {level : Bool} {s : State} (h : bitOf s.pts.filtered i = level) :
    inputChanged i level s = setFilterTimer i .idle s := if_pos h.symm

theorem inputChanged_running {i : Nat} {level : Bool} {s : State} (h : bitOf s.pts.filtered i ≠ level)
    (hrun : isRunning (timerAt s.pts.filterTimers i) = true) : inputChanged i level s = s :=
  (if_neg (Ne.symm h)).trans (if_pos hrun)

theorem inputChanged_direct {i : Nat} {level : Bool} {s : State} (h : bitOf s.pts.filtered i ≠ level)
    (hidle : isRunning (timerAt s.pts.filterTimers i) = false) (hF : s.pts.filterTime = 0) :
    inputChanged i level s = formPoint0 (setPts { s.pts with filtered := putBit s.pts.filtered i level } s) :=
  (if_neg (Ne.symm h)).trans ((if_neg (Bool.eq_false_iff.1 hidle)).trans (if_pos hF))

theorem inputChanged_starts {i : Nat} {level : Bool} {s : State} (h : bitOf s.pts.filtered i ≠ level)
    (hidle : isRunning (timerAt s.pts.filterTimers i) = false) (hF : s.pts.filterTime ≠ 0) :
    inputChanged i level s = setFilterTimer i (startTimer level s.pts.filterTime.toNat s) s :=
  (if_neg (Ne.symm h)).trans ((if_neg (Bool.eq_false_iff.1 hidle)).trans (if_neg hF))

/-! ### The timers that run out together (R46) -/

theorem timerAt_set {ts : List Timer} {i j : Nat} (t : Timer) (hi : i < ts.length) :
    timerAt (ts.set i t) j = if j = i then t else timerAt ts j := by
  by_cases hj : j = i
  · subst hj; simp [timerAt, hi]
  · simp [timerAt, hj, Ne.symm hj]

/-- A line's filtered level and timer once its timer has run out; an idle timer's expiry does not happen. -/
def lineExpired : Bool × Timer → Bool × Timer
  | (_, .running b _) => (b, .idle)
  | (level, .idle) => (level, .idle)

/-- A line's filtered level and filter timer. -/
def filterOf (p : PointUnit) (i : Nat) : Bool × Timer := (bitOf p.filtered i, timerAt p.filterTimers i)

theorem lineExpired_idem (x : Bool × Timer) : lineExpired (lineExpired x) = lineExpired x := by
  rcases x with ⟨level, _ | ⟨b, n⟩⟩ <;> rfl

theorem expireFilter_frame (i : Nat) (p : PointUnit) :
    (expireFilter i p).filterTimers.length = p.filterTimers.length ∧
      expireFilter i p = { p with filtered := (expireFilter i p).filtered, filterTimers := (expireFilter i p).filterTimers } := by
  unfold expireFilter
  split <;> simp

theorem filterOf_expireFilter {i j : Nat} {p : PointUnit} (hi : i < 16) (hl : p.filterTimers.length = 16) :
    filterOf (expireFilter i p) j = if j = i then lineExpired (filterOf p j) else filterOf p j := by
  by_cases hj : j = i
  · subst hj
    cases ht : timerAt p.filterTimers j <;> simp [filterOf, expireFilter, ht, lineExpired, hi, timerAt_set _ (hl ▸ hi)]
  · cases ht : timerAt p.filterTimers i <;> simp [filterOf, expireFilter, ht, hi, hj, timerAt_set _ (hl ▸ hi)]

theorem expireFilters_frame (lines : Word) (l : List Nat) (p : PointUnit) :
    (expireFilters lines l p).filterTimers.length = p.filterTimers.length ∧
      expireFilters lines l p = { p with
        filtered := (expireFilters lines l p).filtered, filterTimers := (expireFilters lines l p).filterTimers } := by
  induction l generalizing p with
  | nil => exact ⟨rfl, rfl⟩
  | cons i rest ih =>
    rw [expireFilters]
    split
    case isTrue =>
      obtain ⟨hlength, hframe⟩ := ih (expireFilter i p)
      obtain ⟨hlengthOne, hframeOne⟩ := expireFilter_frame i p
      refine ⟨hlength.trans hlengthOne, hframe.trans ?_⟩
      generalize expireFilter i p = q at hframeOne ⊢
      rw [hframeOne]
    case isFalse => exact ih p

/-- Each line of the mask that is listed has its timer run out, every other line stays. -/
theorem filterOf_expireFilters {lines : Word} {l : List Nat} {p : PointUnit} (hlist : ∀ i ∈ l, i < 16)
    (hl : p.filterTimers.length = 16) (j : Nat) :
    filterOf (expireFilters lines l p) j =
      if j ∈ l ∧ bitOf lines j = true then lineExpired (filterOf p j) else filterOf p j := by
  induction l generalizing p with
  | nil => simp [expireFilters]
  | cons i rest ih =>
    have hi : i < 16 := hlist i (List.mem_cons_self ..)
    have hrest : ∀ k ∈ rest, k < 16 := fun k hk => hlist k (List.mem_cons_of_mem _ hk)
    rw [expireFilters]
    by_cases hbit : bitOf lines i = true
    · rw [if_pos hbit, ih hrest ((expireFilter_frame i p).1.trans hl), filterOf_expireFilter hi hl]
      by_cases hj : j = i
      · subst hj
        simp [hbit, lineExpired_idem]
      · simp [hj]
    · rw [if_neg hbit, ih hrest hl]
      by_cases hj : j = i
      · subst hj
        simp [hbit]
      · simp [hj]

/-- Settles O46: the cases of a changed raw level, and the timers that run out together line by line. -/
theorem inputFiltering : Obligations.InputFiltering := by
  refine ⟨fun line level s _ _ => ⟨fun h => ?same, fun h => ⟨fun hback => ?back, fun haway hrun => ?runs,
    fun haway hidle hF => ?starts, fun point haway hidle hF hpoint => ?direct⟩⟩, fun lines s hpoints htimers => ?expiry⟩
  case same => simp only [exec, execInputChange, h, if_true]
  case back =>
    exact (exec_inputChange_of_ne h).trans (congrArg _ (inputChanged_back (s := rawChanged line.val level s) hback))
  case runs =>
    exact (exec_inputChange_of_ne h).trans (congrArg _ (inputChanged_running (s := rawChanged line.val level s) haway hrun))
  case starts =>
    exact (exec_inputChange_of_ne h).trans
      (congrArg _ (inputChanged_starts (s := rawChanged line.val level s) haway hidle hF))
  case direct =>
    subst hpoint
    refine (exec_inputChange_of_ne h).trans (congrArg _ ?_)
    refine (inputChanged_direct (s := rawChanged line.val level s) haway hidle hF).trans ?_
    exact changePoint_eq 0 _ (.point 0) _
  case expiry =>
    have hline := filterOf_expireFilters (lines := lines) (l := List.range 16) (by simp) htimers
    obtain ⟨hlength, hframe⟩ := expireFilters_frame lines (List.range 16) s.pts
    refine ⟨(expireFilters lines (List.range 16) s.pts).filtered, (expireFilters lines (List.range 16) s.pts).filterTimers,
      _, rfl, hlength.trans htimers, fun i b n hi hbit hrun => ?_, fun i hi hstays => ?_, ?_⟩
    · have hexpired := hline i
      simp only [List.mem_range, hi, hbit, and_self, if_true, filterOf, hrun, lineExpired, Prod.mk.injEq] at hexpired
      exact hexpired
    · have hkept : filterOf (expireFilters lines (List.range 16) s.pts) i = filterOf s.pts i := by
        rw [hline i]
        rcases hstays with hbit | hidle
        · simp [hbit]
        · simp [filterOf, hidle, lineExpired]
      exact Prod.mk.inj hkept
    · have hexec : exec (.filterExpiry lines) s =
          .next (formPoint0 (setPts (expireFilters lines (List.range 16) s.pts) s)) := rfl
      generalize expireFilters lines (List.range 16) s.pts = p at hframe hexec ⊢
      rw [hexec, formPoint0, changePoint_eq, hframe]
      rfl

end Sys2Proof.Machine

/-! PROOF. What is computed from the state at each read of it (R2, R145, R155, R199, R201), the condition of hardware reset (R21, R22,
R47, R57, R83, R120, R156, R159), and the start bit (R3). -/

namespace Sys2Proof.Machine

/-! ### The status byte (R145, R199) -/

theorem getLsbD_flagAt (b : Bool) (i j : Nat) : (flagAt b i).getLsbD j = (b && decide (j < 8) && decide (i = j)) := by
  cases b
  · simp [flagAt]
  · simp only [flagAt, if_true, BitVec.getLsbD_ofNat, Nat.testBit_two_pow, Bool.true_and]

/-- The fields of the status byte at one bit (Fig. 23). -/
theorem bitOf_statusByte (s : State) {i : Nat} (hi : i < 8) :
    bitOf ((statusByte s).setWidth 16) i =
      ((cmdReady s && decide (0 = i)) || (decide (s.port.phase = .replying) && decide (1 = i)) || (hatn s && decide (2 = i)) ||
        (stateCode s.ctl.state <<< 3).getLsbD i || ((s.ctl.holds.host || s.ctl.holds.lone) && decide (5 = i)) ||
        (s.port.perr && decide (6 = i)) || (queryDone s && decide (7 = i))) := by
  have h16 : i < 16 := by omega
  simp only [bitOf, statusByte, BitVec.getLsbD_setWidth, BitVec.getLsbD_or, getLsbD_flagAt, h16, hi, decide_true, Bool.true_and,
    Bool.and_true]

/-- The two bits of the station state's code (R198). -/
theorem stateCode_bits (c : StationState) :
    ((stateCode c <<< 3).getLsbD 3 = true ↔ c = .listen ∨ c = .fault) ∧
      ((stateCode c <<< 3).getLsbD 4 = true ↔ c = .synced ∨ c = .fault) ∧
      ∀ i, i ≠ 3 → i ≠ 4 → (stateCode c <<< 3).getLsbD i = false := by
  refine ⟨by cases c <;> decide, by cases c <;> decide, fun i h3 h4 => ?_⟩
  by_cases h8 : i < 8
  · interval_cases i <;> cases c <;> first | rfl | exact absurd rfl h3 | exact absurd rfl h4
  · exact BitVec.getLsbD_of_ge _ i (by omega)

/-! ### LTX (R2) -/

theorem charLevels_start (b : Byte) : (charLevels b)[0]? = some false := rfl

theorem charLevels_data (b : Byte) {i : Nat} (hi : i < 8) : (charLevels b)[1 + i]? = some (b.getLsbD i) := by
  interval_cases i <;> rfl

theorem charLevels_stop (b : Byte) : (charLevels b)[9]? = some true := rfl

/-- Character `j` takes the bit times from 10 `j` on (R2). -/
theorem flatMap_charLevels {l : List Byte} {j r : Nat} {c : Byte} (hc : l[j]? = some c) (hr : r < 10) :
    (l.flatMap charLevels)[10 * j + r]? = (charLevels c)[r]? := by
  induction l generalizing j with
  | nil => simp at hc
  | cons a rest ih =>
    rw [List.flatMap_cons]
    cases j with
    | zero =>
      obtain rfl : a = c := by simpa using hc
      rw [List.getElem?_append_left (by rw [charLevels_length]; omega)]
      simp
    | succ j =>
      have hrest : rest[j]? = some c := by simpa using hc
      rw [List.getElem?_append_right (by rw [charLevels_length]; omega), charLevels_length, ← ih hrest]
      congr 1
      omega

theorem flatMap_charLevels_length (l : List Byte) : (l.flatMap charLevels).length = 10 * l.length := by
  simp [List.length_flatMap, Nat.mul_comm]

theorem ltx_char {s : State} {j r : Nat} {c : Byte} {b : Bool} (h : lde s = true) (hc : s.line.txFrame[j]? = some c)
    (hr : r < 10) (hb : (charLevels c)[r]? = some b) : ltx s (10 * j + r) = b := by
  have hsending : txSending s = true := h
  rw [ltx, if_pos hsending, List.getD_eq_getElem?_getD, flatMap_charLevels hc hr, hb]
  rfl

theorem ltx_after {s : State} {n : Nat} (h : lde s = true) (hn : 10 * s.line.txFrame.length ≤ n) : ltx s n = true := by
  have hsending : txSending s = true := h
  rw [ltx, if_pos hsending, List.getD_eq_getElem?_getD, List.getElem?_eq_none (by rwa [flatMap_charLevels_length])]
  rfl

theorem lde_iff (s : State) : lde s = true ↔ ∃ kind, s.line.tx = .sending kind := by
  unfold lde txSending
  cases s.line.tx <;> simp

/-- Settles O19: the status byte bit by bit, the pins from their definitions, LTX by the bit times of a character. -/
theorem statusByteAndPins : Obligations.StatusByteAndPins := by
  intro s
  obtain ⟨hstate3, hstate4, hstate⟩ := stateCode_bits s.ctl.state
  have hhatn : hatn s = true ↔ s.evq ≠ [] := by simp [hatn]
  refine ⟨?ready, ?reply, ?event, ?listen, ?synced, ?hold, ?perr, ?done, hhatn, lde_iff s, fun hlde n => ltx_rest s n hlde,
    fun hlde j c hc => ⟨?start, fun i hi => ?data, ?stop⟩, fun hlde n hn => ltx_after hlde hn⟩
  case ready => rw [bitOf_statusByte s (by omega), hstate 0 (by omega) (by omega)]; simp [cmdReady]
  case reply => rw [bitOf_statusByte s (by omega), hstate 1 (by omega) (by omega)]; simp
  case event => rw [bitOf_statusByte s (by omega), hstate 2 (by omega) (by omega)]; simp [hhatn]
  case listen => simpa [bitOf_statusByte] using hstate3
  case synced => simpa [bitOf_statusByte] using hstate4
  case hold => rw [bitOf_statusByte s (by omega), hstate 5 (by omega) (by omega)]; simp
  case perr => rw [bitOf_statusByte s (by omega), hstate 6 (by omega) (by omega)]; simp
  case done => rw [bitOf_statusByte s (by omega), hstate 7 (by omega) (by omega)]; simp [queryDone]
  case start => exact ltx_char (r := 0) hlde hc (by omega) (charLevels_start c)
  case data =>
    rw [Nat.add_assoc]
    exact ltx_char hlde hc (by omega) (charLevels_data c hi)
  case stop => exact ltx_char hlde hc (by omega) (charLevels_stop c)

/-! ### Hardware reset (R21, R22, R47, R57, R83, R120, R156, R159) -/

theorem timerAt_replicate (n i : Nat) : timerAt (List.replicate n .idle) i = .idle := by
  by_cases hi : i < n <;> simp [timerAt, hi]

theorem ruleAt_replicate (n i : Nat) : ruleAt (List.replicate n none) i = none := by
  by_cases hi : i < n <;> simp [ruleAt, hi]

/-- The condition of hardware reset is sound, whatever commands wait (R22). -/
theorem resetWith_sound (inputs : Word) (l : List Instr) : Sound { State.resetWith inputs with pending := l } where
  queue := ⟨Nat.zero_le _, fun h => absurd (show 0 = 32 from h) (by decide), fun r hr => by cases hr⟩
  mirror := keeps_mirrorSound.reset inputs
  query := ⟨Nat.zero_le _, List.nodup_nil, fun q hq => (by cases hq), Nat.zero_le _, fun _ => rfl⟩
  conditions := by
    refine ⟨rfl, rfl, rfl, fun k _ => ?_, rfl, fun _ => ⟨rfl, rfl, rfl, rfl⟩⟩
    have htimer : timerAt (State.resetWith inputs).cond.timers k = .idle := timerAt_replicate 16 k
    refine ⟨fun _ => ⟨bitOf_zero k, bitOf_zero k, bitOf_zero k, htimer⟩, ?_⟩
    show match timerAt (State.resetWith inputs).cond.timers k with | .idle => _ | .running _ _ => _
    rw [htimer]
    rfl
  outputs := by
    refine ⟨rfl, rfl, rfl, rfl, fun i _ => ⟨fun h => ?_, ?_⟩⟩
    · have htimer : timerAt (State.resetWith inputs).out.pulse i = .idle := timerAt_replicate 16 i
      exact absurd (htimer ▸ h) (by decide)
    · have hrule : ruleAt (State.resetWith inputs).out.active i = none := ruleAt_replicate 16 i
      show match ruleAt (State.resetWith inputs).out.active i with | none => _ | some _ => _
      rw [hrule]
      trivial
  pins := by
    refine ⟨rfl, rfl, rfl, rfl, rfl, ?_, rfl, rfl⟩
    show (⟨inputs, .good⟩ : Point) = ⟨inputs ^^^ 0, .good⟩
    simp
  station := by
    refine ⟨rfl, ?_, ?_, ?_, ?_, ?_, ?_, ?_, ?_, ?_, fun _ => rfl, ?_⟩ <;> simp [State.resetWith, Controller.reset, LineUnit.reset,
      txSending]
  port := by
    refine ⟨?_, ?_, ?_, rfl, rfl, rfl, rfl⟩ <;> simp [State.resetWith, Controller.reset, HostPort.reset, CondUnit.reset]

theorem resetWith_paramWord (inputs : Word) (l : List Instr) {i : Nat} (h31 : i ≤ 31) (h30 : i ≠ 30) :
    paramWord { State.resetWith inputs with pending := l } i = 0 := by
  rw [paramWord_eq _ h31]
  split
  case isTrue hlow =>
    interval_cases i <;> rfl
  case isFalse hhigh =>
    obtain ⟨j, rfl⟩ := Nat.exists_eq_add_of_le (Nat.not_lt.1 hhigh)
    have hj : j = 0 ∨ j = 1 ∨ (2 ≤ j ∧ j ≤ 13) ∨ j = 15 := by omega
    have hstation : mkWord Settings.zero.address
        (flagAt false 5 ||| flagAt false 4 ||| (faultCode .none <<< 2) ||| stateCode .config) = 0 := by decide
    have hround : mkWord 0 Settings.zero.slots = 0 := by decide
    rw [Nat.add_sub_cancel_left]
    rcases hj with rfl | rfl | ⟨hlow, hhigh⟩ | rfl
    · exact hstation
    · exact hround
    · interval_cases j <;> rfl
    · rfl

/-- Settles O51: the reset state is written out by its definition and is sound block by block. -/
theorem hardwareResetEffect : Obligations.HardwareResetEffect := by
  refine ⟨⟨resetWith_sound 0 [], fun s => rfl⟩, fun inputs s t ht => ?_⟩
  have hreset : t = { State.resetWith inputs with pending := s.pending } := ht
  refine ⟨hreset ▸ rfl, hreset ▸ resetWith_sound inputs s.pending, hreset ▸ rfl, hreset ▸ rfl, fun n => ?_, fun i hi h30 => ?_⟩
  · exact ltx_rest t n (hreset ▸ rfl)
  · rw [hreset]
    exact resetWith_paramWord inputs s.pending hi h30

/-! ### The start bit (R3) -/

/-- Settles O31: what the receiver and the transmitter do decides, then the phase. -/
theorem startBitBegins : Obligations.StartBitBegins := by
  intro s
  refine ⟨fun hrx htx hphase => ?_, fun hrx htx hphase => ?_, fun h => ?_⟩
  · rcases htx with htx | htx <;> simp only [exec, execStartBit, hrx, htx, if_neg hphase] <;> rfl
  · rcases htx with htx | htx <;> simp only [exec, execStartBit, hrx, htx, if_pos hphase] <;> rfl
  · rcases h with hrx | ⟨hidle, hgap⟩
    · cases h : s.line.rx <;> simp only [exec, execStartBit, h]
      exact absurd h hrx
    · cases h : s.line.rx <;> cases k : s.line.tx <;> simp only [exec, execStartBit, h, k]
      · exact absurd k hidle
      · exact absurd k hgap

end Sys2Proof.Machine

/-! PROOF. Every command completes (00), and the host port byte by byte (R146 to R150): a write by the phase it finds, the bytes of a
whole message, a read by the phase it finds, a whole reply. -/

namespace Sys2Proof.Machine

/-! ### Every command completes and leaves the queue of waiting commands -/

theorem exec_completes (c : Instr) (s : State) : ∃ t, exec c s = .next t := by
  cases c
  case receptionEnd chars =>
    simp only [exec, execReceptionEnd]
    split <;> exact ⟨_, rfl⟩
  case heldCommandRelease =>
    simp only [exec, execHeldCommandRelease]
    split <;> exact ⟨_, rfl⟩
  all_goals exact ⟨_, rfl⟩

theorem makeHeld_pending (c : HeldCommand) (s : State) : (makeHeld c s).pending = s.pending := by cases c <;> simp [makeHeld]

theorem bodyEffect_pending {s t : State} (h : BodyEffect s t) : t.pending = s.pending := by
  cases h <;> simp [commitNow_eq, setPlace, setDef, setRule, storeWord, setCounters, makeHeld_pending, writeHostLevels,
    clearLatched, issueQuery, setQueries]

theorem dataRead_pending (s : State) : (dataRead s).pending = s.pending := by
  unfold dataRead
  split
  · dsimp only
    split <;> rfl
  all_goals rfl

theorem portReset_pending (s : State) : (portReset s).pending = s.pending := by
  unfold portReset
  split <;> rfl

theorem exec_pending {c : Instr} {s t : State} (h : exec c s = .next t) : t.pending = s.pending := by
  have hport : ∀ x u, u.pending = s.pending → (setPort x u).pending = s.pending := fun _ _ hu => hu
  have hbody : ∀ i u, u.pending = s.pending → (bodyOf i u).2.pending = s.pending :=
    fun i u hu => (bodyEffect_pending (body_effect i u)).trans hu
  cases hm : messageOf c with
  | some message =>
    obtain ⟨code, ops⟩ := message
    obtain ⟨body, hexec, hown⟩ := exec_message c code ops s hm
    rw [hexec] at h
    injection h with h
    subst h
    refine command_keeps (P := fun u => u.pending = s.pending) hport hbody code ops body ?_ s rfl
    rcases hown with hown | hown <;> rw [hown] <;> exact hbody _
  | none =>
    by_cases hline : lineEvent c = true
    · exact (lineEvent_leaves c s t hline h).served.pending
    · cases c <;> simp only [messageOf, reduceCtorEq] at hm <;> simp only [lineEvent, not_true] at hline
      case heldCommandRelease =>
        simp only [exec, execHeldCommandRelease] at h
        split at h <;> injection h with h <;> subst h
        · split
          · rfl
          · exact makeHeld_pending _ _
        · rfl
      all_goals injection h with h; subst h
      case hardwareReset => rfl
      case hostDataWrite b =>
        exact dataWrite_keeps (P := fun u => u.pending = s.pending) hport hbody b s rfl
      case dataRead => exact dataRead_pending s
      case portReset => exact portReset_pending s
      case inputChange =>
        split
        · rfl
        · simp
      case filterExpiry => simp
      case conditionPass => simp
      case confirmExpiry => simp
      case pulseExpiry => simp

/-- Settles O3: every arm answers a next state, and none of the operations touches the queue. -/
theorem everyCommandCompletes : Obligations.EveryCommandCompletes := by
  intro c s
  obtain ⟨t, ht⟩ := exec_completes c s
  exact ⟨t, ht, exec_pending ht⟩

/-! ### A data write by the phase it finds (R146, R150) -/

theorem dataWrite_perr {b : Byte} {s : State} (h : s.port.perr = true) : dataWrite b s = s := if_pos h

theorem dataWrite_ready {b : Byte} {s : State} (h : s.port.perr = false) (hphase : s.port.phase = .ready) :
    dataWrite b s = setPort { s.port with phase := .filling, buf := [b], len := none } s := by
  rw [dataWrite, if_neg (Bool.eq_false_iff.1 h), hphase]

theorem dataWrite_length {b : Byte} {s : State} (h : s.port.perr = false) (hphase : s.port.phase = .filling)
    (hlen : s.port.len = none) : dataWrite b s = writeLength b s := by
  rw [dataWrite, if_neg (Bool.eq_false_iff.1 h), hphase]
  simp only [hlen]

theorem dataWrite_operand {b : Byte} {n : Nat} {s : State} (h : s.port.perr = false) (hphase : s.port.phase = .filling)
    (hlen : s.port.len = some n) : dataWrite b s = writeOperand n b s := by
  rw [dataWrite, if_neg (Bool.eq_false_iff.1 h), hphase]
  simp only [hlen]

theorem writeLength_long {b : Byte} {s : State} (h : 30 < b.toNat) :
    writeLength b s = setPort { s.port with phase := .ready, buf := [], len := none, perr := true } s := if_pos h

theorem writeLength_some {b : Byte} {s : State} (h1 : 1 ≤ b.toNat) (h30 : b.toNat ≤ 30) :
    writeLength b s = setPort { s.port with buf := s.port.buf ++ [b], len := some b.toNat } s := by
  have hne : b ≠ 0 := by rintro rfl; simp at h1
  exact (if_neg (Nat.not_lt.2 h30)).trans (if_neg hne)

theorem writeLength_zero {code : Byte} {s : State} (hbuf : s.port.buf = [code]) :
    writeLength 0 s = execute [code, 0] (bodyOf (decodeMessage code [])) s := by
  refine (if_neg (by decide)).trans ((if_pos rfl).trans ?_)
  rw [hbuf]
  rfl

theorem writeOperand_open {b : Byte} {n : Nat} {s : State} (h : s.port.buf.length + 1 ≠ 2 + n) :
    writeOperand n b s = setPort { s.port with buf := s.port.buf ++ [b] } s := by
  refine if_neg ?_
  rwa [List.length_append]

theorem writeOperand_last {code len b : Byte} {ops : List Byte} {n : Nat} {s : State} (hbuf : s.port.buf = code :: len :: ops)
    (h : ops.length + 1 = n) :
    writeOperand n b s = execute (code :: len :: ops ++ [b]) (bodyOf (decodeMessage code (ops ++ [b]))) s := by
  have hlength : (s.port.buf ++ [b]).length = 2 + n := by
    rw [hbuf, List.length_append]
    simp only [List.length_cons, List.length_nil]
    omega
  refine (if_pos hlength).trans ?_
  rw [hbuf]
  rfl

/-- Settles O5: the write by PERR, phase and what has been received. -/
theorem dataWriteByPhase : Obligations.DataWriteByPhase := by
  intro b s
  have hexec : exec (.hostDataWrite b) s = .next (dataWrite b s) := rfl
  rw [hexec]
  refine ⟨fun h => ?perr, fun h hp => ?ready, fun h hp hl hb => ?long, fun h hp hl h1 h30 => ?length,
    fun code h hp hl hbuf hb => ?zero, fun n h hp hl hn => ?operand, fun n code len ops h hp hl hbuf hn => ?last,
    fun h hp => ?busy⟩ <;> refine congrArg _ ?_
  case perr => exact dataWrite_perr h
  case ready => exact dataWrite_ready h hp
  case long => exact (dataWrite_length h hp hl).trans (writeLength_long hb)
  case length => exact (dataWrite_length h hp hl).trans (writeLength_some h1 h30)
  case zero =>
    subst hb
    exact (dataWrite_length h hp hl).trans (writeLength_zero hbuf)
  case operand => exact (dataWrite_operand h hp hl).trans (writeOperand_open hn)
  case last => exact (dataWrite_operand h hp hl).trans (writeOperand_last hbuf hn)
  case busy =>
    rw [dataWrite, if_neg (Bool.eq_false_iff.1 h)]
    rcases hp with hp | hp <;> rw [hp] <;> rfl

/-! ### The bytes of a whole message (R146, R147; log 12) -/

theorem run_next {M : Host.Core} {k : Nat} {s t : M.State} (h : M.step s = .next t) : M.run (k + 1) s = M.run k t := by
  simp only [Host.Core.run, h]

/-- A command that waits in front of others is taken by the first of the steps of a run. -/
theorem run_front (c : Instr) (rest : List Instr) (k : Nat) {s t : State} (h : exec c (setPending rest s) = .next t) :
    Host.Core.run Sys2Proof.core (k + 1) (setPending (c :: rest) s) = Host.Core.run Sys2Proof.core k t :=
  run_next (M := Sys2Proof.core) h

theorem exec_hostDataWrite {b : Byte} {s t : State} (h : dataWrite b s = t) : exec (.hostDataWrite b) s = .next t :=
  congrArg _ h

theorem exec_dataRead {s t : State} (h : dataRead s = t) : exec .dataRead s = .next t := congrArg _ h

/-- The state with a message partly received: the code, the length byte and some operands. -/
def withPart (buf : List Byte) (len : Option Nat) (s : State) : State :=
  setPort { s.port with phase := .filling, buf := buf, len := len } s

/-- An execution sets phase, buffer and length before its body runs. -/
theorem execute_withPart (m buf : List Byte) (len : Option Nat) (body : State → Result) (s : State) :
    execute m body (withPart buf len s) = execute m body s := rfl

/-- The operand bytes that are still to come complete the message and run its command. -/
theorem run_operands {code L : Byte} {done todo : List Byte} {n : Nat} {rest : List Instr} {s : State}
    (hperr : s.port.perr = false) (hn : done.length + todo.length = n) (htodo : todo ≠ []) :
    Host.Core.run Sys2Proof.core todo.length
        (setPending (todo.map Instr.hostDataWrite ++ rest) (withPart (code :: L :: done) (some n) s)) =
      .next (execute (code :: L :: done ++ todo) (bodyOf (decodeMessage code (done ++ todo))) (setPending rest s)) := by
  induction todo generalizing done with
  | nil => exact absurd rfl htodo
  | cons b later ih =>
    cases later with
    | nil =>
      have hlast : exec (.hostDataWrite b) (setPending rest (withPart (code :: L :: done) (some n) s)) =
          .next (execute (code :: L :: done ++ [b]) (bodyOf (decodeMessage code (done ++ [b]))) (setPending rest s)) := by
        refine exec_hostDataWrite ((dataWrite_operand (n := n) (by exact hperr) rfl rfl).trans ?_)
        exact writeOperand_last (s := setPending rest (withPart (code :: L :: done) (some n) s)) rfl hn
      exact (run_front _ rest 0 hlast).trans rfl
    | cons c later =>
      have hopen : (code :: L :: done).length + 1 ≠ 2 + n := by
        simp only [List.length_cons] at hn ⊢
        omega
      have hwrite : exec (.hostDataWrite b) (setPending ((c :: later).map Instr.hostDataWrite ++ rest)
            (withPart (code :: L :: done) (some n) s)) =
          .next (setPending ((c :: later).map Instr.hostDataWrite ++ rest)
            (withPart (code :: L :: (done ++ [b])) (some n) s)) := by
        refine exec_hostDataWrite ((dataWrite_operand (n := n) (by exact hperr) rfl rfl).trans ?_)
        exact writeOperand_open (s := setPending _ (withPart (code :: L :: done) (some n) s)) hopen
      refine (run_front _ _ _ hwrite).trans ?_
      rw [ih (done := done ++ [b]) (by simp only [List.length_append, List.length_cons, List.length_nil] at hn ⊢; omega)
        (List.cons_ne_nil _ _)]
      simp

/-- A command sent as a whole message to a port that takes it runs its body, a discard mark set or not (R147). -/
theorem exec_ready {c : Instr} {code : Byte} {ops : List Byte} {s : State} (hm : messageOf c = some (code, ops))
    (hf : operandsFit ops = true) (hphase : s.port.phase = .ready) (hperr : s.port.perr = false) :
    exec c s = .next (execute (code :: BitVec.ofNat 8 ops.length :: ops) (bodyOf (decodeMessage code ops)) s) := by
  have hready : (portReady s && operandsFit ops) = true := by simp [portReady, hphase, hperr, hf]
  have hrun : ∀ body : List Byte → State → Result,
      command code ops body s = execute (code :: BitVec.ofNat 8 ops.length :: ops) (body ops) s := fun body => if_pos hready
  cases c <;> simp only [messageOf, Option.some.injEq, Prod.mk.injEq, reduceCtorEq] at hm <;> obtain ⟨rfl, rfl⟩ := hm <;>
    exact congrArg Host.Outcome.next (hrun _)

/-- Settles O6: the code byte, the length byte, then the operands, the last of which runs the command. -/
theorem messageRunsItsCommand : Obligations.MessageRunsItsCommand := by
  intro c code ops rest s hm hf hphase hperr
  rw [exec_ready hm hf (s := { s with pending := rest }) hphase hperr]
  have hcode : exec (.hostDataWrite code) (setPending (Instr.hostDataWrite (BitVec.ofNat 8 ops.length) ::
        (ops.map Instr.hostDataWrite ++ rest)) s) =
      .next (setPending (Instr.hostDataWrite (BitVec.ofNat 8 ops.length) :: (ops.map Instr.hostDataWrite ++ rest))
        (withPart [code] none s)) := exec_hostDataWrite (dataWrite_ready hperr hphase)
  refine (run_front _ _ _ hcode).trans ?_
  have hfits : ops.length ≤ 30 := of_decide_eq_true hf
  by_cases hops : ops = []
  · subst hops
    have hzero : exec (.hostDataWrite 0) (setPending rest (withPart [code] none s)) =
        .next (execute [code, 0] (bodyOf (decodeMessage code [])) (setPending rest s)) :=
      exec_hostDataWrite ((dataWrite_length (by exact hperr) rfl rfl).trans
        (writeLength_zero (s := setPending rest (withPart [code] none s)) rfl))
    exact (run_front _ rest 0 hzero).trans rfl
  · have hpos : 0 < ops.length := List.length_pos_iff.2 hops
    have hbyte : (BitVec.ofNat 8 ops.length).toNat = ops.length := by
      rw [BitVec.toNat_ofNat]
      omega
    have hlength : exec (.hostDataWrite (BitVec.ofNat 8 ops.length)) (setPending (ops.map Instr.hostDataWrite ++ rest)
          (withPart [code] none s)) =
        .next (setPending (ops.map Instr.hostDataWrite ++ rest)
          (withPart [code, BitVec.ofNat 8 ops.length] (some ops.length) s)) := by
      refine exec_hostDataWrite ((dataWrite_length (by exact hperr) rfl rfl).trans ?_)
      refine (writeLength_some (s := setPending _ (withPart [code] none s)) (by omega) (by omega)).trans ?_
      rw [hbyte]
      rfl
    refine (run_front _ _ _ hlength).trans ?_
    exact run_operands (done := []) hperr (by simp) hops

/-! ### Data reads (R149, R150) -/

theorem dataRead_within {s : State} (hphase : s.port.phase = .replying) (h : s.port.pos + 1 < s.port.reply.length) :
    dataRead s = setPort { s.port with pos := s.port.pos + 1, readData := some (s.port.reply.getD s.port.pos 0) } s := by
  rw [dataRead, hphase]
  exact if_neg (Nat.not_le.2 h)

theorem dataRead_last {s : State} (hphase : s.port.phase = .replying) (h : s.port.reply.length ≤ s.port.pos + 1) :
    dataRead s = setPort { s.port with
      phase := .ready, reply := [], pos := 0, readData := some (s.port.reply.getD s.port.pos 0) } s := by
  rw [dataRead, hphase]
  exact if_pos h

/-- The port after `k + 1` further bytes of a reply have been read from position `p` (R149). -/
def afterReads (p k : Nat) (x : HostPort) : HostPort :=
  { x with
    phase := if p + k + 1 = x.reply.length then .ready else .replying
    reply := if p + k + 1 = x.reply.length then [] else x.reply
    pos := if p + k + 1 = x.reply.length then 0 else p + k + 1
    readData := x.reply[p + k]? }

theorem run_reads {k : Nat} {rest : List Instr} {s : State} (hphase : s.port.phase = .replying)
    (h : s.port.pos + k < s.port.reply.length) :
    Host.Core.run Sys2Proof.core (k + 1) (setPending (List.replicate (k + 1) Instr.dataRead ++ rest) s) =
      .next (setPort (afterReads s.port.pos k s.port) (setPending rest s)) := by
  induction k generalizing s with
  | zero =>
    have hread : dataRead (setPending rest s) = setPort (afterReads s.port.pos 0 s.port) (setPending rest s) := by
      have hbyte : s.port.reply[s.port.pos]? = some (s.port.reply.getD s.port.pos 0) := by
        rw [List.getD_eq_getElem?_getD, List.getElem?_eq_getElem (by simpa using h)]
        rfl
      by_cases hlast : s.port.pos + 1 = s.port.reply.length
      · refine (dataRead_last (s := setPending rest s) hphase hlast.ge).trans ?_
        simp only [setPending_port, afterReads, Nat.add_zero, hlast, if_true, hbyte]
      · refine (dataRead_within (s := setPending rest s) hphase (by simp only [setPending_port]; omega)).trans ?_
        simp only [setPending_port, afterReads, Nat.add_zero, hlast, if_false, hbyte, hphase]
    exact (run_front _ rest 0 (exec_dataRead hread)).trans rfl
  | succ k ih =>
    have hread : exec .dataRead (setPending (List.replicate (k + 1) Instr.dataRead ++ rest) s) =
        .next (setPending (List.replicate (k + 1) Instr.dataRead ++ rest)
          (setPort { s.port with pos := s.port.pos + 1, readData := some (s.port.reply.getD s.port.pos 0) } s)) :=
      exec_dataRead (dataRead_within (s := setPending (List.replicate (k + 1) Instr.dataRead ++ rest) s) hphase
        (by simp only [setPending_port]; omega))
    refine (run_front _ _ _ hread).trans ?_
    refine (ih (s := setPort { s.port with
      pos := s.port.pos + 1, readData := some (s.port.reply.getD s.port.pos 0) } s) hphase
      (by simp only [setPort_port]; omega)).trans ?_
    have hposition : s.port.pos + 1 + k = s.port.pos + (k + 1) := by omega
    simp [afterReads, hposition, setPort]

/-- Settles O7: the read by the phase it finds, and the reads of a reply one after the other. -/
theorem dataReads : Obligations.DataReads := by
  refine ⟨fun s => ⟨fun hp h => ?within, fun hp h => ?last, fun hp => ?filling, fun hp => ?idle⟩,
    fun s rest k hp hpos hk => ?reply⟩
  case within => exact congrArg _ (dataRead_within hp h)
  case last => exact congrArg _ (dataRead_last hp h)
  case filling => simp only [exec, execDataRead, dataRead, hp]; rfl
  case idle => rcases hp with hp | hp <;> simp only [exec, execDataRead, dataRead, hp] <;> rfl
  case reply =>
    refine (run_reads hp (by omega)).trans ?_
    rw [afterReads, hpos, Nat.zero_add]
    rfl

end Sys2Proof.Machine

/-! PROOF. The station's own time (R1, R2, R10, R13, R41, R201): the first event that is due, a unit of time, and the window in which a
millisecond timer runs out. -/

namespace Sys2Proof.Machine

/-! ### A unit of time -/

theorem runDown_eq (t : Option Nat) : runDown t = t.map (· - 1) := by cases t <;> rfl

theorem lineQuiet_iff (l : LineUnit) : lineQuiet l = true ↔ l.rx = .idle ∧ (l.tx = .idle ∨ l.tx = .gap) := by
  simp [lineQuiet]

theorem runDownIf_eq {quiet : Bool} {p : Prop} [Decidable p] (h : quiet = true ↔ p) (t : Option Nat) :
    runDownIf quiet t = if p then t.map (· - 1) else t := by
  unfold runDownIf
  rw [runDown_eq]
  exact if_congr h rfl rfl

/-- The line unit after a unit of time (R2, R10, R13, R54). -/
theorem tickLine_eq (s : State) :
    { (tickLine s.line) with pictures := tickPictures s } = { s.line with
      contention := if s.line.rx = .idle ∧ (s.line.tx = .idle ∨ s.line.tx = .gap) then s.line.contention.map (· - 1)
        else s.line.contention
      coldStart := if s.line.rx = .idle ∧ (s.line.tx = .idle ∨ s.line.tx = .gap) then s.line.coldStart.map (· - 1)
        else s.line.coldStart
      slotTimer := s.line.slotTimer.map (· - 1), gapTimer := s.line.gapTimer.map (· - 1)
      pictures := if s.line.pictures = [] then [] else (slotPicture s :: s.line.pictures).take s.ct } := by
  simp only [tickLine, tickPictures, runDownIf_eq (lineQuiet_iff s.line), runDown_eq]

/-- A timer at a unit of time: it runs down when the timebase wraps (R1, R201). -/
def timerTicked (phase : Nat) (t : Timer) : Timer := if phase + 1 < 100 then t else tickTimer t

theorem map_timerTicked (phase : Nat) (ts : List Timer) :
    ts.map (timerTicked phase) = if phase + 1 < 100 then ts else ts.map tickTimer := by
  split
  case isTrue h => exact (List.map_congr_left fun t _ => if_pos h).trans (List.map_id ts)
  case isFalse h => exact List.map_congr_left fun t _ => if_neg h

/-- A unit of time, whole (R201; logs 3 and 32). -/
theorem tick_eq (s : State) : tick s = { s with
    time := ⟨if s.time.phase + 1 < 100 then s.time.phase + 1 else 0⟩
    line := { (tickLine s.line) with pictures := tickPictures s }
    ctl := { s.ctl with ageTimer := s.ctl.ageTimer.map (· - 1) }
    pts := { s.pts with filterTimers := s.pts.filterTimers.map (timerTicked s.time.phase) }
    cond := { s.cond with timers := s.cond.timers.map (timerTicked s.time.phase) }
    out := { s.out with pulse := s.out.pulse.map (timerTicked s.time.phase) } } := by
  simp only [map_timerTicked, ← runDown_eq]
  by_cases h : s.time.phase + 1 < 100
  · simp only [h, if_true]
    exact if_pos h
  · simp only [h, if_false]
    exact if_neg h

/-! ### The first event that is due (log 2) -/

theorem isDue_iff (t : Timer) : isDue t = true ↔ RunOut t := by
  rcases t with _ | ⟨b, n⟩
  · simp [isDue, RunOut]
  · cases b <;> simp [isDue, RunOut]

theorem isDue_eq (t : Timer) : isDue t = decide (RunOut t) := by
  rw [Bool.eq_iff_iff, isDue_iff, decide_eq_true_iff]

theorem mayBegin_iff (s : State) : mayBegin s = true ↔ FreeToSend s := by
  simp [mayBegin, FreeToSend, and_assoc]

theorem txSending_eq_false_iff (s : State) :
    txSending s = false ↔ s.line.tx ≠ .sending .openFrame ∧ s.line.tx ≠ .sending .slotFrame := by
  unfold txSending
  cases s.line.tx with
  | sending kind => cases kind <;> simp
  | _ => simp

/-- The command of the first event in a list that is due. -/
def firstOf (l : List (Bool × Instr)) : Option Instr := (l.find? fun e => e.1).map fun e => e.2

theorem firstOf_cons (b : Bool) (c : Instr) (l : List (Bool × Instr)) :
    firstOf ((b, c) :: l) = if b then some c else firstOf l := by
  cases b <;> simp [firstOf]

theorem firstOf_append (l m : List (Bool × Instr)) : firstOf (l ++ m) = (firstOf l).or (firstOf m) := by
  simp only [firstOf, List.find?_append]
  cases l.find? fun e => e.1 <;> rfl

theorem firstOf_timers (ts : List Timer) (c : Fin 16 → Instr) :
    firstOf ((List.finRange 16).map fun k => (decide (RunOut (timerAt ts k.val)), c k)) = (firstDue ts).map c := by
  simp only [firstOf, List.find?_map, firstDue, isDue_eq, Option.map_map]
  rfl

theorem dueMask_ne_zero_iff (ts : List Timer) : dueMask ts ≠ 0 ↔ ∃ i : Fin 16, RunOut (timerAt ts i.val) := by
  rw [word_ne_zero_iff]
  constructor
  · rintro ⟨i, hi, hbit⟩
    rw [dueMask, bitOf_wordOf _ _ hi, isDue_iff] at hbit
    exact ⟨⟨i, hi⟩, hbit⟩
  · rintro ⟨i, hout⟩
    refine ⟨i.val, i.isLt, ?_⟩
    rwa [dueMask, bitOf_wordOf _ _ i.isLt, isDue_iff]

theorem dueMask_eq (ts : List Timer) : dueMask ts = wordOf fun i => decide (RunOut (timerAt ts i)) :=
  congrArg wordOf (funext fun _ => isDue_eq _)

/-- The line unit's own events (R7, R10, R13, R15). -/
def lineEvents (s : State) : List (Bool × Instr) :=
  [(s.ctl.state = .synced ∧ s.line.tx = .gap ∧ s.line.gapTimer = some 0 ∧ FreeToSend s, .transmissionStart),
    (s.ctl.state = .synced ∧ s.line.phase = .slots ∧ s.line.slotTimer = some 0 ∧ s.line.rx = .idle ∧ s.line.tx = .idle,
      .skipPoint),
    (s.ctl.state = .synced ∧ s.line.phase = .contention ∧ s.line.contention = some 0 ∧ s.line.tx = .idle ∧ FreeToSend s,
      .contentionTimeout),
    (s.ctl.state = .listen ∧ s.line.coldStart = some 0 ∧ s.line.tx = .idle ∧ FreeToSend s, .coldStart)]

/-- The expiries of the age-step timer and of the millisecond timers (R41, R45, R94, R108). -/
def expiryEvents (s : State) : List (Bool × Instr) :=
  ((s.ctl.state = .listen ∨ s.ctl.state = .fault) ∧ s.ctl.ageTimer = some 0, .ageStepTimer) ::
    (decide (∃ i : Fin 16, RunOut (timerAt s.pts.filterTimers i.val)),
      .filterExpiry (wordOf fun i => RunOut (timerAt s.pts.filterTimers i))) ::
    (((List.finRange 16).map fun k => (decide (RunOut (timerAt s.cond.timers k.val)), .confirmExpiry k)) ++
      ((List.finRange 16).map fun i => (decide (RunOut (timerAt s.out.pulse i.val)), .pulseExpiry i)))

theorem ownEvents_eq (s : State) : ownEvents s =
    (decide (s.ctl.state ≠ .config ∧ s.cond.notices ≠ []), .conditionPass) :: (s.line.dupReport, .collisionLimit) ::
      (s.line.driverReport, .driverFault) ::
      (decide (s.ctl.held ≠ none ∧ s.line.tx ≠ .sending .openFrame ∧ s.line.tx ≠ .sending .slotFrame), .heldCommandRelease) ::
      (lineEvents s ++ expiryEvents s) := rfl

theorem dueLine_eq (s : State) : dueLine s = firstOf (lineEvents s) := by
  simp only [lineEvents, firstOf_cons, decide_eq_true_eq, dueLine, mayBegin_iff]
  rfl

theorem dueExpiry_eq (s : State) : dueExpiry s = firstOf (expiryEvents s) := by
  rw [expiryEvents, firstOf_cons, firstOf_cons, firstOf_append, firstOf_timers, firstOf_timers, ← dueMask_eq]
  simp only [decide_eq_true_eq, ← dueMask_ne_zero_iff, dueExpiry]
  cases firstDue s.cond.timers <;> cases firstDue s.out.pulse <;> rfl

theorem dueCommand_eq (s : State) : dueCommand s = firstDueEvent s := by
  have hheld : s.ctl.held.isSome = true ↔ s.ctl.held ≠ none := Option.isSome_iff_ne_none
  have hfirst : firstDueEvent s = firstOf (ownEvents s) := rfl
  rw [hfirst, ownEvents_eq, firstOf_cons, firstOf_cons, firstOf_cons, firstOf_cons, firstOf_append, ← dueLine_eq,
    ← dueExpiry_eq]
  simp only [dueCommand, decide_eq_true_eq, hheld, txSending_eq_false_iff]
  cases dueLine s <;> rfl

theorem step_due {s : State} {c : Instr} (hpending : s.pending = []) (h : dueCommand s = some c) : step s = exec c s := by
  simp only [step, hpending, h]

theorem step_tick {s : State} (hpending : s.pending = []) (h : dueCommand s = none) : step s = .next (tick s) := by
  simp only [step, hpending, h]

/-- Settles O2: the events in their order, then the unit of time block by block. -/
theorem emptyQueueIsOwnTime : Obligations.EmptyQueueIsOwnTime := by
  intro s hpending
  rw [← dueCommand_eq]
  refine ⟨fun c hc => step_due hpending hc, fun hnone => ?_⟩
  intro quiet ms
  have hms : timerTicked s.time.phase = ms := by
    funext t
    cases t with
    | idle => exact ite_self _
    | running b n => rfl
  have htick := tick_eq s
  rw [tickLine_eq, hms] at htick
  exact (step_tick hpending hnone).trans (congrArg _ htick)

/-! ### The window of a millisecond timer (R1) -/

/-- A list of timers of the state that every unit of time carries on. -/
def Ticks (timers : State → List Timer) : Prop := ∀ s, timers (tick s) = (timers s).map (timerTicked s.time.phase)

theorem timerAt_map_ticked (phase : Nat) (ts : List Timer) (i : Nat) :
    timerAt (ts.map (timerTicked phase)) i = timerTicked phase (timerAt ts i) := by
  unfold timerAt
  rw [List.getElem?_map]
  cases ts[i]? with
  | none =>
    show Timer.idle = timerTicked phase .idle
    unfold timerTicked
    split <;> rfl
  | some t => rfl

/-- After `u` units a running timer has counted the wraps of the timebase. -/
theorem timerAt_iterate {timers : State → List Timer} (ht : Ticks timers) {s : State} {b : Bool} {m i : Nat}
    (hphase : s.time.phase < 100) (hrun : timerAt (timers s) i = .running b m) (u : Nat) :
    (tick^[u] s).time.phase = (s.time.phase + u) % 100 ∧
      timerAt (timers (tick^[u] s)) i = .running b (m - (s.time.phase + u) / 100) := by
  induction u with
  | zero =>
    have hdiv : s.time.phase / 100 = 0 := Nat.div_eq_of_lt hphase
    simpa [hdiv] using ⟨(Nat.mod_eq_of_lt hphase).symm, hrun⟩
  | succ u ih =>
    obtain ⟨hp, htimer⟩ := ih
    rw [Function.iterate_succ_apply', ht, timerAt_map_ticked, htimer, tick_eq, timerTicked, hp]
    dsimp only
    split
    case isTrue h => exact ⟨by omega, by congr 1; omega⟩
    case isFalse h => exact ⟨by omega, by simp only [tickTimer]; congr 1; omega⟩

/-- Settles O4: the wraps counted since the start, for each of the three lists. -/
theorem timersExpireInTime : Obligations.TimersExpireInTime := by
  intro s b n i u hn hphase timers htimers hstart
  have hticks : Ticks timers := by
    simp only [List.mem_cons, List.not_mem_nil, or_false] at htimers
    rcases htimers with rfl | rfl | rfl <;> intro x <;> simp only [tick_eq]
  have hrun := fun m h => (timerAt_iterate hticks (m := m) (b := b) (i := i) hphase (hstart.trans h) u).2
  unfold startTimer at hrun
  by_cases h0 : s.time.phase = 0
  · rw [hrun n (by rw [if_pos h0])]
    constructor <;> intro hu <;> simp only [isDue, beq_iff_eq, beq_eq_false_iff_ne] <;> omega
  · rw [hrun (n + 1) (by rw [if_neg h0])]
    constructor <;> intro hu <;> simp only [isDue, beq_iff_eq, beq_eq_false_iff_ne] <;> omega

end Sys2Proof.Machine

/-! PROOF. Receptions by the station state and the phase (R4, R5, R11, R13, R14, R19, R20, R26, R28, R30, R31): what is counted, what
ends a slot, and the changes of station state they bring. -/

namespace Sys2Proof.Machine

/-! ### A reception that ends (R3, R4) -/

/-- The station at the end of a reception: the receiver is idle, the characters are kept, the pictures are let go. -/
def received (chars : List RxChar) (s : State) : State :=
  setLine { s.line with rx := .idle, rxFrame := storedChars chars, pictures := [] } s

theorem exec_receptionEnd_idle {chars : List RxChar} {s : State} (h : s.line.rx = .idle) :
    exec (.receptionEnd chars) s = .next s := by
  simp only [exec, execReceptionEnd, h]

theorem exec_receptionEnd_ignoring {chars : List RxChar} {s : State} (h : s.line.rx = .ignoring) :
    exec (.receptionEnd chars) s = .next (loadColdStart s.ct (setLine { s.line with rx := .idle } s)) := by
  simp only [exec, execReceptionEnd, h]

theorem exec_receptionEnd_config {chars : List RxChar} {s : State} (h : s.line.rx = .receiving) (hs : s.ctl.state = .config) :
    exec (.receptionEnd chars) s = .next (received chars s) := by
  simp only [exec, execReceptionEnd, h, hs, if_true]
  rfl

theorem exec_receptionEnd {chars : List RxChar} {s : State} (h : s.line.rx = .receiving) (hs : s.ctl.state ≠ .config) :
    exec (.receptionEnd chars) s = .next (actOnReception (judge chars) (silencePast chars s) (pictureAtEnd chars s)
      (countReception (judge chars).isSome (received chars s))) := by
  simp only [exec, execReceptionEnd, h, hs, if_false]
  rfl

/-- A valid reception, received and counted in word 18 (R4). -/
def receivedValid (chars : List RxChar) (s : State) : State := countReception true (received chars s)

/-- An invalid reception, received and counted in word 19 (R4). -/
def receivedInvalid (chars : List RxChar) (s : State) : State := countReception false (received chars s)

theorem exec_receptionEnd_valid {chars : List RxChar} {s : State} {f : Frame} (h : s.line.rx = .receiving)
    (hs : s.ctl.state ≠ .config) (hj : judge chars = some f) :
    exec (.receptionEnd chars) s = .next (actOnReception (some f) (silencePast chars s) (pictureAtEnd chars s)
      (receivedValid chars s)) := by
  rw [exec_receptionEnd h hs, hj]
  rfl

theorem exec_receptionEnd_invalid {chars : List RxChar} {s : State} (h : s.line.rx = .receiving)
    (hs : s.ctl.state ≠ .config) (hj : judge chars = none) :
    exec (.receptionEnd chars) s = .next (actOnReception none (silencePast chars s) (pictureAtEnd chars s)
      (receivedInvalid chars s)) := by
  rw [exec_receptionEnd h hs, hj]
  rfl

/-! What the station does with a judged reception, by its state (R4). -/

theorem actOnReception_listen (f : Frame) {e : Nat} {p : Option SlotPicture} {s : State} (h : s.ctl.state = .listen) :
    actOnReception (some f) e p s = frameInListen f s := by
  simp only [actOnReception, h]

theorem actOnReception_listen_invalid {e : Nat} {p : Option SlotPicture} {s : State} (h : s.ctl.state = .listen) :
    actOnReception none e p s = loadColdStart e s := by
  simp only [actOnReception, h]

theorem actOnReception_synced_open (f : OpenFrame) {e : Nat} {p : Option SlotPicture} {s : State} (h : s.ctl.state = .synced) :
    actOnReception (some (.opening f)) e p s = openInSynced f s := by
  simp only [actOnReception, h]

theorem actOnReception_synced_slot (f : SlotFrame) {e : Nat} {p : Option SlotPicture} {s : State} (h : s.ctl.state = .synced) :
    actOnReception (some (.slot f)) e p s = slotInSynced f s := by
  simp only [actOnReception, h]

theorem actOnReception_synced_invalid {e : Nat} {p : Option SlotPicture} {s : State} (h : s.ctl.state = .synced) :
    actOnReception none e p s = invalidInSynced e p s := by
  simp only [actOnReception, h]

theorem actOnReception_fault (f : Frame) {e : Nat} {p : Option SlotPicture} {s : State} (h : s.ctl.state = .fault) :
    actOnReception (some f) e p s = frameInFault f s := by
  simp only [actOnReception, h]

theorem actOnReception_fault_invalid {e : Nat} {p : Option SlotPicture} {s : State} (h : s.ctl.state = .fault) :
    actOnReception none e p s = s := by
  simp only [actOnReception, h]

theorem matching_iff (s : State) (f : OpenFrame) :
    matching s f = true ↔ f.signature = s.ctl.signature ∧ f.slots = s.settings.slots := by
  simp [matching]

theorem not_matching_iff (s : State) (f : OpenFrame) :
    ¬ matching s f = true ↔ f.signature ≠ s.ctl.signature ∨ f.slots ≠ s.settings.slots := by
  rw [matching_iff]
  exact Decidable.not_and_iff_or_not

theorem loadColdStart_of_listen {e : Nat} {s : State} (h : s.ctl.state = .listen) :
    loadColdStart e s = setLine { s.line with coldStart := some (s.coldStartWait - e) } s := if_pos h

theorem loadColdStart_of_ne {e : Nat} {s : State} (h : s.ctl.state ≠ .listen) : loadColdStart e s = s := if_neg h

/-! ### Receptions in CONFIG, FAULT and LISTEN (R13, R20, R21, R23) -/

theorem exec_receptionEnd_fault {chars : List RxChar} {s : State} (hrx : s.line.rx = .receiving) (hs : s.ctl.state = .fault) :
    exec (.receptionEnd chars) s = .next (match judge chars with
      | none => receivedInvalid chars s
      | some f => frameInFault f (receivedValid chars s)) := by
  have hrun : s.ctl.state ≠ .config := by simp [hs]
  cases hj : judge chars with
  | none =>
    rw [exec_receptionEnd_invalid hrx hrun hj]
    exact congrArg _ (actOnReception_fault_invalid (s := receivedInvalid chars s) hs)
  | some f =>
    rw [exec_receptionEnd_valid hrx hrun hj]
    exact congrArg _ (actOnReception_fault (s := receivedValid chars s) f hs)

theorem frameInFault_opening (f : OpenFrame) (s : State) :
    frameInFault (.opening f) s = setCounters { s.par.counters with
      foreignOpens := if f.signature = s.ctl.signature ∧ f.slots = s.settings.slots then s.par.counters.foreignOpens
        else satInc s.par.counters.foreignOpens } s := by
  by_cases hmatch : f.signature = s.ctl.signature ∧ f.slots = s.settings.slots
  · rw [if_pos hmatch]
    exact if_pos ((matching_iff s f).2 hmatch)
  · rw [if_neg hmatch]
    exact if_neg fun h => hmatch ((matching_iff s f).1 h)

/-- Settles O32: what an end of an activity does by the receiver, the station state and the judgement. -/
theorem receptionsOutsideTheRound : Obligations.ReceptionsOutsideTheRound := by
  intro chars s
  refine ⟨exec_receptionEnd_idle, fun hrx => ?ignoring, fun hrx hs => exec_receptionEnd_config hrx hs, fun hrx hs => ?fault,
    fun hrx hs hj => ?invalid, fun f hrx hs hj hpeer => ?peer⟩
  case ignoring =>
    rw [exec_receptionEnd_ignoring hrx]
    by_cases hs : s.ctl.state = .listen
    · rw [if_pos hs]
      exact congrArg _ (loadColdStart_of_listen (s := setLine { s.line with rx := .idle } s) hs)
    · rw [if_neg hs]
      exact congrArg _ (loadColdStart_of_ne (s := setLine { s.line with rx := .idle } s) hs)
  case fault =>
    rw [exec_receptionEnd_fault hrx hs]
    rcases judge chars with _ | f | f
    · rfl
    · exact congrArg _ (frameInFault_opening f (receivedValid chars s))
    · rfl
  case invalid =>
    rw [exec_receptionEnd_invalid hrx (by simp [hs]) hj, actOnReception_listen_invalid (s := receivedInvalid chars s) hs]
    exact congrArg _ (loadColdStart_of_listen (s := receivedInvalid chars s) hs)
  case peer =>
    rw [exec_receptionEnd_valid hrx (by simp [hs]) hj, actOnReception_listen (s := receivedValid chars s) _ hs]
    refine congrArg _ ((if_neg (c := f.sender.toNat = s.address) hpeer).trans ?_)
    exact loadColdStart_of_listen (s := receivedValid chars s) hs

/-! ### OPEN frames in LISTEN (R26, R28) -/

theorem post_only (k : EventKind) (a : Byte) (d : Word) (s : State) :
    ∃ evq par, post k a d s = { s with evq := evq, par := par } := by
  unfold post
  dsimp only
  split
  · exact ⟨_, s.par, rfl⟩
  · exact ⟨_, _, rfl⟩

theorem enterFault_of_running {f : FaultCause} {c : StateCause} {s : State} (hs : PinsSound s) (h : Running s) :
    ∃ t, .next (enterFault f c s) = (.next t : Answered) ∧ FaultEntered f c s t := ⟨_, rfl, enterFault_entered f c hs h⟩

/-- With the drive mode of the state, the entry to SYNCED from LISTEN leaves it (R40). -/
theorem updateDriveMode_joinEntered {round : Byte} {s : State} (hs : PinsSound s) (h : s.ctl.state = .listen) :
    updateDriveMode (joinEntered round s) = joinEntered round s := by
  refine updateDriveMode_of_eq ?_
  have hmode : s.ctl.driveMode = deriveMode s.ctl.state s.ctl.holds := hs.2.1
  exact hmode.trans (by rw [h, deriveMode_listen_synced]; rfl)

theorem join_entered (round : Byte) {s : State} (hs : PinsSound s) (h : s.ctl.state = .listen) :
    (join round s).ctl = { s.ctl with state := .synced, ageTimer := none, loneCounter := 0, heard := false } ∧
      (join round s).line = slotLine 0 0 none (join round s) { s.line with round := round } ∧
      Recorded [⟨.state, 2, mkWord (causeCode .join) (faultCode s.ctl.faultCause), round⟩] s (join round s) ∧
      ∃ ctl line evq par, join round s = { s with ctl := ctl, line := line, evq := evq, par := par } := by
  have hjoin : join round s = startSlot 0 0 none (postState .join (joinEntered round s)) := by
    rw [join_eq, updateDriveMode_joinEntered hs h]
  obtain ⟨evq, par, hpost⟩ := post_only .state (stateCode (joinEntered round s).ctl.state)
    (mkWord (causeCode .join) (faultCode (joinEntered round s).ctl.faultCause)) (joinEntered round s)
  have hposted : postState .join (joinEntered round s) = { joinEntered round s with evq := evq, par := par } := hpost
  have hrecorded := recorded_post .state 2 (mkWord (causeCode .join) (faultCode s.ctl.faultCause)) (joinEntered round s)
  have hline := startSlot_line_self 0 0 none (postState .join (joinEntered round s))
  rw [← hjoin] at hline
  refine ⟨?_, ?_, ?_, ?_⟩
  · rw [hjoin, startSlot_ctl, hposted]; rfl
  · rw [hline, hposted]; rfl
  · refine (hrecorded.of_start (s := s) rfl rfl).to_end ?_ ?_ <;> rw [hjoin, startSlot_eq] <;> rfl
  · rw [hjoin, startSlot_eq, hposted]
    exact ⟨_, _, _, _, rfl⟩

end Sys2Proof.Machine

/-! PROOF. The frames the station builds are judged valid and read back whole (R4, R6, R174, R196, R197). -/

namespace Sys2Proof.Machine

/-! ### Address bytes, outcome bits and flags (Fig. 18, Fig. 19) -/

theorem addressBits_of_lt {a : Byte} (h : a.toNat < 32) : addressBits a = a := by
  refine BitVec.eq_of_toNat_eq ?_
  rw [addressBits, BitVec.toNat_and]
  exact (Nat.and_two_pow_sub_one_eq_mod a.toNat 5).trans (Nat.mod_eq_of_lt h)

/-- The marks above an address leave its five bits. -/
theorem addressBits_marked {marks a : Byte} (hm : addressBits marks = 0) (h : a.toNat < 32) :
    addressBits (marks ||| addressBits a) = a := by
  have hor : addressBits (marks ||| addressBits a) = addressBits marks ||| addressBits (addressBits a) := BitVec.and_or_distrib_right
  rw [hor, hm, addressBits_of_lt h, addressBits_of_lt h]
  exact BitVec.zero_or

/-- The address below the marks leaves the two highest bits. -/
theorem marks_kept (marks a : Byte) : (marks ||| addressBits a) &&& 0xC0 = marks &&& 0xC0 := by
  have ha : addressBits a &&& 0xC0 = 0 := by
    rw [addressBits, BitVec.and_assoc]
    exact BitVec.and_zero
  rw [BitVec.and_or_distrib_right, ha]
  exact BitVec.or_zero

theorem readOutcome_answerOutcomeBits {o : Option Outcome} (a : Byte) (ht : o ≠ some .timeout) (ha : o ≠ some .aborted) :
    readOutcome (answerOutcomeBits o ||| addressBits a) = o := by
  simp only [readOutcome, marks_kept]
  rcases o with _ | _ | _ | _ | _ | _
  · rfl
  · rfl
  · rfl
  · rfl
  · exact absurd rfl ht
  · exact absurd rfl ha

/-- The flags byte of given marks and point count less one. -/
def flagsOf (host lone query answer : Bool) (n : Nat) : Byte :=
  (if host then 0x80 else 0) ||| (if lone then 0x40 else 0) ||| (if query then 0x20 else 0) ||| (if answer then 0x10 else 0) |||
    (BitVec.ofNat 8 n &&& 7)

theorem flagsByte_eq (f : SlotFrame) :
    flagsByte f = flagsOf f.holds.host f.holds.lone f.query.isSome f.answer.isSome (f.points.length - 1) := rfl

theorem flagsOf_bits : ∀ (host lone query answer : Bool) (n : Fin 8), let b := flagsOf host lone query answer n.val
    b.getLsbD 7 = host ∧ b.getLsbD 6 = lone ∧ b.getLsbD 5 = query ∧ b.getLsbD 4 = answer ∧ (b &&& 7).toNat = n.val := by
  decide

/-! ### Points (Fig. 17) -/

theorem ofNat_two_pow_bit (i j : Nat) : (BitVec.ofNat 8 (2 ^ i)).getLsbD j = (decide (j < 8) && decide (i = j)) := by
  rw [BitVec.getLsbD_ofNat, Nat.testBit_two_pow]

theorem qualityBits_below (pts : List Point) : ∀ {i j : Nat}, j < i → (qualityBits i pts).getLsbD j = false := by
  induction pts with
  | nil => intro i j _; simp [qualityBits]
  | cons p rest ih =>
    intro i j h
    rw [qualityBits, BitVec.getLsbD_or, ih (Nat.lt_succ_of_lt h), Bool.or_false]
    split
    · rw [ofNat_two_pow_bit, decide_eq_false (Nat.ne_of_gt h), Bool.and_false]
    · exact BitVec.getLsbD_zero

theorem qualityBits_at (pts : List Point) : ∀ {i j : Nat} {p : Point}, pts[j]? = some p → i + j < 8 →
    (qualityBits i pts).getLsbD (i + j) = decide (p.quality = .held) := by
  induction pts with
  | nil => intro i j p h; simp at h
  | cons q rest ih =>
    intro i j p h hlt
    rw [qualityBits, BitVec.getLsbD_or]
    cases j with
    | zero =>
      obtain rfl : q = p := by simpa using h
      rw [Nat.add_zero, qualityBits_below rest (Nat.lt_succ_self i), Bool.or_false]
      by_cases hq : q.quality = .held
      · rw [if_pos hq, ofNat_two_pow_bit, decide_eq_true (show i < 8 from hlt), decide_eq_true rfl, decide_eq_true hq]
        rfl
      · rw [if_neg hq, decide_eq_false hq]
        exact BitVec.getLsbD_zero
    | succ j =>
      have hrest := ih (i := i + 1) (j := j) (p := p) (by simpa using h) (by omega)
      rw [show i + (j + 1) = i + 1 + j by omega, hrest]
      split
      · rw [ofNat_two_pow_bit, decide_eq_false (show i ≠ i + 1 + j by omega), Bool.and_false, Bool.false_or]
      · simp

theorem readPoints_append (quality : Byte) (tail : List Byte) (pts : List Point) : ∀ i : Nat,
    (∀ j p, pts[j]? = some p → quality.getLsbD (i + j) = decide (p.quality = .held)) →
    readPoints quality pts.length i ((pts.flatMap fun p => wordBytes p.value) ++ tail) = pts := by
  induction pts with
  | nil => intro i _; rfl
  | cons p rest ih =>
    intro i h
    have hp := h 0 p rfl
    have hrest := ih (i + 1) fun j q hq => by
      rw [show i + 1 + j = i + (j + 1) by omega]
      exact h (j + 1) q hq
    rw [List.flatMap_cons, List.length_cons, wordBytes]
    simp only [List.cons_append, List.nil_append, readPoints, mkWord_bytes, hrest]
    rw [Nat.add_zero] at hp
    obtain ⟨v, q⟩ := p
    cases q <;> simp_all

theorem pointBytes_length (pts : List Point) : (pts.flatMap fun p => wordBytes p.value).length = 2 * pts.length := by
  induction pts with
  | nil => rfl
  | cons p rest ih =>
    rw [List.flatMap_cons, List.length_append, ih, List.length_cons, wordBytes]
    simp only [List.length_cons, List.length_nil]
    omega

/-! ### Items (Fig. 19) -/

theorem queryItemBytes_length (q : QueryItem) : (queryItemBytes q).length = 5 := rfl

theorem answerItemBytes_length (a : AnswerItem) : (answerItemBytes a).length = 5 := rfl

theorem readQueryItem_bytes {q : QueryItem} (h : q.fits) : readQueryItem (queryItemBytes q) = some q := by
  obtain ⟨target, write, tag, index, value⟩ := q
  obtain ⟨htarget, hindex, hvalue⟩ := h
  have hmark : addressBits (if write then 0x80 else 0 : Byte) = 0 := by cases write <;> rfl
  have hindex' : addressBits index &&& 0x1F = index := by
    rw [addressBits_of_lt hindex]
    exact addressBits_of_lt hindex
  have hwrite : ((if write then 0x80 else 0 : Byte) ||| addressBits target).getLsbD 7 = write := by
    cases write <;> simp [addressBits]
  have hword : (if write then value else 0) = value := by
    cases write with
    | true => rfl
    | false => exact (hvalue rfl).symm
  simp only [queryItemBytes, readQueryItem, wordBytes, List.cons_append, List.nil_append, mkWord_bytes, tagOf_setWidth]
  rw [addressBits_marked hmark htarget, hwrite, hword]
  exact congrArg (fun x => some (⟨target, write, tag, x, value⟩ : QueryItem)) hindex'

theorem readAnswerItem_bytes {a : AnswerItem} (h : a.fits) : readAnswerItem (answerItemBytes a) = some a := by
  obtain ⟨requester, tag, round, outcome, value⟩ := a
  obtain ⟨hrequester, htimeout, haborted⟩ := h
  have hmark : addressBits (answerOutcomeBits outcome) = 0 := by rcases outcome with _ | _ | _ | _ | _ | _ <;> rfl
  simp only [answerItemBytes, readAnswerItem, wordBytes, List.cons_append, List.nil_append, mkWord_bytes, tagOf_setWidth]
  rw [addressBits_marked hmark hrequester, readOutcome_answerOutcomeBits requester htimeout haborted]

/-! ### A sealed frame (R3, R4, R197) -/

theorem readFrame_sealed {header len : Byte} {body : List Byte} (h : len.toNat = body.length) :
    readFrame (sealFrame (header :: len :: body)) = readBody header len body := by
  simp only [sealFrame, List.cons_append, readFrame, h, List.take_left', List.drop_left']
  simp [wordBytes]

theorem judge_sealed {header len : Byte} {body : List Byte} (h : len.toNat = body.length) (hl : body.length ≤ 29) :
    judge ((sealFrame (header :: len :: body)).map fun b => ⟨b, false⟩) = readBody header len body := by
  have hend : declaredEnd ((sealFrame (header :: len :: body)).map fun b => (⟨b, false⟩ : RxChar)) = some (5 + body.length) := by
    simp [sealFrame, declaredEnd, h, Config.longestLength, hl]
  have hlength : (sealFrame (header :: len :: body)).length = 5 + body.length := by
    simp only [sealFrame, wordBytes, List.cons_append, List.length_cons, List.length_append, List.length_nil]
    omega
  have hown : receptionChars ((sealFrame (header :: len :: body)).map fun b => (⟨b, false⟩ : RxChar)) =
      (sealFrame (header :: len :: body)).map fun b => ⟨b, false⟩ := by
    simp only [receptionChars, hend]
    exact List.take_of_length_le (by simp [hlength])
  have hreached : reachedEnd ((sealFrame (header :: len :: body)).map fun b => (⟨b, false⟩ : RxChar)) = true := by
    simp [reachedEnd, hend, hlength]
  simp only [judge, hown, hreached, true_and]
  rw [if_pos (by simp), List.map_map]
  exact (congrArg readFrame (List.map_id _)).trans (readFrame_sealed h)

/-! ### The two frames (Fig. 16, Fig. 17) -/

theorem header_kind (marks a : Byte) {k : Byte} (h : marks &&& 0xC0 = k) : (marks ||| addressBits a) &&& 0xC0 = k :=
  (marks_kept marks a).trans h

theorem judge_buildOpen {f : OpenFrame} (h : f.sender.toNat < 32) :
    judge ((buildOpen f).map fun b => ⟨b, false⟩) = some (.opening f) := by
  have hsender : addressBits (0x40 ||| addressBits f.sender) = f.sender := addressBits_marked rfl h
  have hkind : (0x40 ||| addressBits f.sender) &&& 0xC0 = 0x40 := header_kind 0x40 f.sender rfl
  refine (judge_sealed (body := [f.round, hiByte f.signature, loByte f.signature, f.slots]) rfl (by simp)).trans ?_
  rw [readBody, if_pos hkind]
  simp only [readOpen, if_true, hsender, mkWord_bytes]

/-- The body of a SLOT frame: round, flags, quality, the point values, the items present. -/
def slotBody (f : SlotFrame) : List Byte :=
  f.round :: flagsByte f :: qualityBits 0 f.points ::
    ((f.points.flatMap fun p => wordBytes p.value) ++ (itemBytes queryItemBytes f.query ++ itemBytes answerItemBytes f.answer))

theorem buildSlot_eq (f : SlotFrame) : buildSlot f = sealFrame ((0x80 ||| addressBits f.sender) ::
    BitVec.ofNat 8 (slotLength f.points.length f.query.isSome f.answer.isSome) :: slotBody f) := by
  simp [buildSlot, slotBody]

theorem itemBytes_length {α : Type} (bytes : α → List Byte) (h : ∀ a, (bytes a).length = 5) (o : Option α) :
    (itemBytes bytes o).length = if o.isSome then 5 else 0 := by
  cases o with
  | none => rfl
  | some a => exact h a

theorem slotBody_length (f : SlotFrame) :
    (slotBody f).length = slotLength f.points.length f.query.isSome f.answer.isSome := by
  simp only [slotBody, List.length_cons, List.length_append, pointBytes_length,
    itemBytes_length _ queryItemBytes_length, itemBytes_length _ answerItemBytes_length, slotLength]
  omega

theorem slotLength_le {n : Nat} (h : n ≤ 8) (q a : Bool) : slotLength n q a ≤ 29 := by
  cases q <;> cases a <;> simp [slotLength] <;> omega

/-- The items behind the points are read back, each at its place. -/
theorem readItems (query : Option QueryItem) (answer : Option AnswerItem) (hq : ∀ q, query = some q → q.fits)
    (ha : ∀ a, answer = some a → a.fits) :
    let items := itemBytes queryItemBytes query ++ itemBytes answerItemBytes answer
    (if query.isSome then readQueryItem (items.take 5) else none) = query ∧
      (if answer.isSome then readAnswerItem (if query.isSome then items.drop 5 else items) else none) = answer := by
  have hanswer : (if answer.isSome then readAnswerItem (itemBytes answerItemBytes answer) else none) = answer := by
    cases answer with
    | none => rfl
    | some a => exact readAnswerItem_bytes (ha a rfl)
  cases query with
  | none => exact ⟨rfl, hanswer⟩
  | some q => exact ⟨readQueryItem_bytes (hq q rfl), hanswer⟩

theorem readSlot_slotBody {f : SlotFrame} (h : f.fits) : readSlot (0x80 ||| addressBits f.sender)
    (BitVec.ofNat 8 (slotLength f.points.length f.query.isSome f.answer.isSome)) (slotBody f) = some (.slot f) := by
  obtain ⟨hsender, hone, height, hquery, hanswer⟩ := h
  have hlen : (BitVec.ofNat 8 (slotLength f.points.length f.query.isSome f.answer.isSome)).toNat =
      slotLength f.points.length f.query.isSome f.answer.isSome := by
    rw [BitVec.toNat_ofNat]
    exact Nat.mod_eq_of_lt (Nat.lt_of_le_of_lt (slotLength_le height _ _) (by decide))
  obtain ⟨hhost, hlone, hq, ha, hn⟩ := flagsOf_bits f.holds.host f.holds.lone f.query.isSome f.answer.isSome
    ⟨f.points.length - 1, by omega⟩
  rw [← flagsByte_eq] at hhost hlone hq ha hn
  have hcount : (flagsByte f &&& 7).toNat + 1 = f.points.length := by
    rw [hn]
    exact Nat.sub_add_cancel hone
  have hpoints := readPoints_append (qualityBits 0 f.points)
    (itemBytes queryItemBytes f.query ++ itemBytes answerItemBytes f.answer) f.points 0 fun j p hp =>
      qualityBits_at f.points hp (by
        have := (List.getElem?_eq_some_iff.1 hp).1
        omega)
  have hdrop : ((f.points.flatMap fun p => wordBytes p.value) ++
      (itemBytes queryItemBytes f.query ++ itemBytes answerItemBytes f.answer)).drop (2 * f.points.length) =
      itemBytes queryItemBytes f.query ++ itemBytes answerItemBytes f.answer :=
    List.drop_left' (pointBytes_length f.points)
  obtain ⟨hreadQuery, hreadAnswer⟩ := readItems f.query f.answer hquery hanswer
  simp only [slotBody, readSlot, hcount, hq, ha, hlen, if_true, hhost, hlone, hpoints, hdrop, hreadQuery, hreadAnswer,
    addressBits_marked (marks := 0x80) rfl hsender]

theorem judge_buildSlot {f : SlotFrame} (h : f.fits) : judge ((buildSlot f).map fun b => ⟨b, false⟩) = some (.slot f) := by
  have height : f.points.length ≤ 8 := h.2.2.1
  have hle := slotLength_le height f.query.isSome f.answer.isSome
  have hlen : (BitVec.ofNat 8 (slotLength f.points.length f.query.isSome f.answer.isSome)).toNat = (slotBody f).length := by
    rw [slotBody_length, BitVec.toNat_ofNat]
    exact Nat.mod_eq_of_lt (Nat.lt_of_le_of_lt hle (by decide))
  have hkind : (0x80 ||| addressBits f.sender) &&& 0xC0 = 0x80 := header_kind 0x80 f.sender rfl
  rw [buildSlot_eq, judge_sealed hlen (by rw [slotBody_length]; exact hle), readBody, hkind, if_neg (by decide), if_pos rfl]
  exact readSlot_slotBody h

/-- Settles O52: a frame is its sealed body, and each field is read back from its own bits. -/
theorem framesReadBack : Obligations.FramesReadBack :=
  ⟨fun _ h => judge_buildSlot h, fun _ h => judge_buildOpen h⟩

/-! ### The STATE record of an entry to SYNCED carries the fault cause as it stands (R42, R200) -/

/-- A station in LISTEN with sound pins that has kept a fault cause, with its cold-start timer running. -/
def listeningWithCause : State :=
  let s := State.resetWith 0
  { s with
    line := { s.line with phase := .watch, coldStart := some 0 }
    ctl := { s.ctl with state := .listen, faultCause := .signature, driveMode := .drive }
    pts := { s.pts with points := s.pts.points.set 2 ⟨0, .good⟩, driveMode := .drive }
    out := { s.out with mode := .drive } }

theorem listeningWithCause_pinsSound : PinsSound listeningWithCause := by
  refine ⟨rfl, rfl, rfl, rfl, ?_, rfl, rfl, rfl⟩
  decide

theorem coldStarted_listeningWithCause_evq :
    (coldStarted listeningWithCause).evq = [⟨.state, 2, 0x0301, 0⟩] := by
  rfl

/-- Refutes O40: from a sound LISTEN state the entry to SYNCED by cold start posts the fault cause as it stands, and no premise
says that LISTEN has none. -/
theorem not_ownOpenFrame : ¬ Obligations.OwnOpenFrame := by
  intro h
  obtain ⟨_, _, hcold, _⟩ := h listeningWithCause _ rfl
  obtain ⟨t, ht, hrecorded, _⟩ := hcold rfl (by decide) rfl rfl listeningWithCause_pinsSound
  have hexec : exec .coldStart listeningWithCause = .next (coldStarted listeningWithCause) := rfl
  obtain rfl : coldStarted listeningWithCause = t := by simpa [hexec] using ht
  have hevq := coldStarted_listeningWithCause_evq.symm.trans hrecorded.1
  exact absurd hevq (by decide)

/-- The same station with the reception of an OPEN of its own signature and slot count in progress. -/
def receivingWithCause : State :=
  { listeningWithCause with line := { listeningWithCause.line with rx := .receiving } }

theorem receivingWithCause_pinsSound : PinsSound receivingWithCause := listeningWithCause_pinsSound

/-- A reception of the OPEN frame that address 1 builds with the settings of hardware reset. -/
def matchingOpenChars : List RxChar := (buildOpen ⟨1, 0, 0, 0⟩).map fun b => ⟨b, false⟩

theorem judge_matchingOpenChars : judge matchingOpenChars = some (.opening ⟨1, 0, 0, 0⟩) := judge_buildOpen (by decide)

theorem exec_receptionEnd_withCause : exec (.receptionEnd matchingOpenChars) receivingWithCause =
    .next (join 0 (receivedValid matchingOpenChars receivingWithCause)) :=
  exec_receptionEnd_valid rfl (by decide) judge_matchingOpenChars

theorem join_withCause_evq :
    (join 0 (receivedValid matchingOpenChars receivingWithCause)).evq = [⟨.state, 2, 0x0201, 0⟩] :=
  (join_entered 0 (s := receivedValid matchingOpenChars receivingWithCause) receivingWithCause_pinsSound rfl).2.2.1.1

/-- Refutes O33: from a sound LISTEN state a join posts the fault cause as it stands, and no premise says that LISTEN has none. -/
theorem not_openFramesInListen : ¬ Obligations.OpenFramesInListen := by
  intro h
  obtain ⟨hmatch, _⟩ := h.1 matchingOpenChars _ receivingWithCause _ rfl rfl receivingWithCause_pinsSound judge_matchingOpenChars rfl
  obtain ⟨t, ht, _, _, hrecorded, _⟩ := hmatch rfl rfl
  obtain rfl : join 0 (receivedValid matchingOpenChars receivingWithCause) = t := by
    simpa [exec_receptionEnd_withCause] using ht
  exact absurd (join_withCause_evq.symm.trans hrecorded.1) (by decide)

end Sys2Proof.Machine

/-! PROOF. Receptions and silent slots while SYNCED (R4, R7, R9, R11, R14, R19, R30, R31): what starts a round, what ends a slot, and
what is a loss of the round. -/

namespace Sys2Proof.Machine

/-! ### OPEN frames (R11, R14, R30) -/

theorem openInSynced_starts {f : OpenFrame} {s : State} (hm : f.signature = s.ctl.signature ∧ f.slots = s.settings.slots)
    (hp : s.line.phase ≠ .slots) : openInSynced f s = startSlot 0 0 none (setLine { s.line with round := f.round } s) :=
  (if_pos ((matching_iff s f).2 hm)).trans (if_neg hp)

theorem openInSynced_cuts {f : OpenFrame} {s : State} (hm : f.signature = s.ctl.signature ∧ f.slots = s.settings.slots)
    (hp : s.line.phase = .slots) : openInSynced f s = cutRound f.round s :=
  (if_pos ((matching_iff s f).2 hm)).trans (if_pos hp)

theorem openInSynced_foreign {f : OpenFrame} {s : State} (hm : f.signature ≠ s.ctl.signature ∨ f.slots ≠ s.settings.slots) :
    openInSynced f s = syncLoss .foreign 1 (countForeign s) :=
  if_neg ((not_matching_iff s f).2 hm)

/-- A round close does not count in word 31. -/
theorem RoundClosed.roundCuts {s t : State} (h : RoundClosed s t) : t.par.counters.roundCuts = s.par.counters.roundCuts := by
  rw [h.events.2]

/-- The station whose round is cut, once the close is announced and counted in word 31. -/
def cutClosed (s : State) : State :=
  setCounters { (announceClose s).par.counters with roundCuts := satInc (announceClose s).par.counters.roundCuts } (announceClose s)

theorem cutRound_start (round : Byte) (s : State) :
    cutRound round s = startSlot 0 0 none (setLine { (cutClosed s).line with round := round } (cutClosed s)) := rfl

theorem cutClosed_line (s : State) : (cutClosed s).line = s.line := announceClose_line s

theorem cutRound_line (round : Byte) (s : State) :
    (cutRound round s).line = slotLine 0 0 none (cutRound round s) { s.line with round := round } := by
  rw [← cutClosed_line s]
  exact startSlot_line_self 0 0 none (setLine { (cutClosed s).line with round := round } (cutClosed s))

theorem cutRound_eq (round : Byte) (s : State) : cutRound round s = { announceClose s with
    line := (cutRound round s).line
    par := { (announceClose s).par with counters := { (announceClose s).par.counters with
      roundCuts := satInc s.par.counters.roundCuts } } } := by
  rw [← (announceClose_closed s).roundCuts]
  rw [cutRound_start, startSlot_eq]
  rfl

/-- Settles O34: an OPEN while SYNCED starts a round, cuts one short, or is a sync loss, by signature, slot count and phase. -/
theorem openFramesInSynced : Obligations.OpenFramesInSynced := by
  intro chars f s l hrx hs hj hl
  obtain rfl : receivedValid chars s = l := hl.symm
  have hexec := (exec_receptionEnd_valid hrx (by simp [hs]) hj).trans
    (congrArg _ (actOnReception_synced_open (s := receivedValid chars s) f hs))
  refine ⟨fun hsig hslots hphase => ?starts, fun hsig hslots hphase => ?cuts, fun hforeign hpins => ?foreign⟩
  case starts =>
    rw [openInSynced_starts (s := receivedValid chars s) ⟨hsig, hslots⟩ hphase] at hexec
    refine ⟨_, hexec, startSlot_line_self _ _ _ _, ?_⟩
    rw [startSlot_eq]
    rfl
  case cuts =>
    rw [openInSynced_cuts (s := receivedValid chars s) ⟨hsig, hslots⟩ hphase] at hexec
    exact ⟨_, _, hexec, announceClose_closed _, cutRound_line _ _, cutRound_eq _ _⟩
  case foreign =>
    rw [openInSynced_foreign (s := receivedValid chars s) hforeign] at hexec
    exact ⟨_, hexec, syncLoss_lost .foreign 1 (s := countForeign (receivedValid chars s)) hpins hs⟩

/-! ### SLOT frames that fail a check (R11, R19, R20, R31) -/

theorem duplicateAddress_entered {s : State} (h : s.ctl.state = .listen ∨ s.ctl.state = .synced) (hs : PinsSound s) :
    FaultEntered .duplicate .duplicate s (duplicateAddress s) := by
  rw [duplicateAddress, if_pos h]
  exact enterFault_entered _ _ hs (by rcases h with h | h <;> simp [Running, h])

theorem slotInSynced_slots {f : SlotFrame} {k : Nat} {s : State} (hp : s.line.phase = .slots) (hk : s.line.slot = some k) :
    slotInSynced f s = slotCheck k f s := by
  simp only [slotInSynced, hp, hk]

theorem slotInSynced_contention {f : SlotFrame} {s : State} (hp : s.line.phase = .contention)
    (hpeer : f.sender.toNat ≠ s.address) : slotInSynced f s = loadContention 0 (countMismatch s) := by
  simp only [slotInSynced, hp, if_neg hpeer]

/-- The own address is checked first, in every phase (R19). -/
theorem slotInSynced_own {f : SlotFrame} {s : State} (h : f.sender.toNat = s.address) : slotInSynced f s = duplicateAddress s := by
  unfold slotInSynced
  split
  · exact if_pos h
  · exact if_pos h

theorem slotCheck_below {f : SlotFrame} {k : Nat} {s : State} (hpeer : f.sender.toNat ≠ s.address)
    (hin : f.sender.toNat < s.slots) (hk : f.sender.toNat < k) : slotCheck k f s = syncLoss .syncLoss 0 s :=
  (if_neg hpeer).trans ((if_neg (Nat.not_le.2 hin)).trans (if_pos hk))

/-- A sender outside the round or another round number: the frame counts as a mismatch and ends the expected slot (R19). -/
theorem slotCheck_mismatch {f : SlotFrame} {k : Nat} {s : State} (hpeer : f.sender.toNat ≠ s.address)
    (h : s.slots ≤ f.sender.toNat ∨ (k ≤ f.sender.toNat ∧ f.round ≠ s.line.round)) :
    slotCheck k f s = endSlot k 0 none (countMismatch s) := by
  by_cases hout : s.slots ≤ f.sender.toNat
  · exact (if_neg hpeer).trans (if_pos hout)
  · obtain ⟨hk, hround⟩ := h.resolve_left hout
    exact (if_neg hpeer).trans ((if_neg hout).trans ((if_neg (Nat.not_lt.2 hk)).trans (if_pos hround)))

/-- Settles O37: the slot checks in their order, and what each leaves. -/
theorem slotFrameChecks : Obligations.SlotFrameChecks := by
  intro chars f s l m hrx hj hl hm
  obtain rfl : receivedValid chars s = l := hl.symm
  obtain rfl : countMismatch (receivedValid chars s) = m := hm.symm
  have hexec (hs : s.ctl.state = .synced) := (exec_receptionEnd_valid hrx (by simp [hs]) hj).trans
    (congrArg _ (actOnReception_synced_slot (s := receivedValid chars s) f hs))
  refine ⟨fun hs hown hpins => ?own, fun k hs hp hk hpeer hin hlow hpins => ?below, fun k hs hp hk hpeer hout => ?mismatch,
    fun hs hp hpeer => ?contention⟩
  case own =>
    have hentered := duplicateAddress_entered (s := receivedValid chars s) hs hpins
    rcases hs with hs | hs
    · have hlisten := (exec_receptionEnd_valid hrx (by simp [hs]) hj).trans
        (congrArg _ (actOnReception_listen (s := receivedValid chars s) _ hs))
      have hact : frameInListen (.slot f) (receivedValid chars s) = duplicateAddress (receivedValid chars s) := if_pos hown
      exact ⟨_, hlisten.trans (congrArg _ hact), hentered⟩
    · exact ⟨_, (hexec hs).trans (congrArg _ (slotInSynced_own (s := receivedValid chars s) hown)), hentered⟩
  case below =>
    have hact := (slotInSynced_slots (f := f) (s := receivedValid chars s) hp hk).trans (slotCheck_below hpeer hin hlow)
    exact ⟨_, (hexec hs).trans (congrArg _ hact), syncLoss_lost .syncLoss 0 (s := receivedValid chars s) hpins hs⟩
  case mismatch =>
    have hact := (slotInSynced_slots (f := f) (s := receivedValid chars s) hp hk).trans (slotCheck_mismatch hpeer hout)
    exact ⟨_, (hexec hs).trans (congrArg _ hact), endSlot_ended _ _ _ _⟩
  case contention =>
    exact (hexec hs).trans (congrArg _ (slotInSynced_contention (s := receivedValid chars s) hp hpeer))

/-! ### Silent slots and invalid receptions (R4, R7, R11) -/

theorem endCurrentSlot_eq {k : Nat} {s : State} (e : Nat) (h : s.line.slot = some k) :
    endCurrentSlot e s = endSlot k e none s := by
  simp only [endCurrentSlot, h]

theorem endCurrentSlot_ended {k : Nat} {s : State} (e : Nat) (h : s.line.slot = some k) :
    SlotEnded k e none s (endCurrentSlot e s) :=
  endCurrentSlot_eq e h ▸ endSlot_ended k e none s

theorem invalidInSynced_slots {k e : Nat} {p : Option SlotPicture} {s : State} (hp : s.line.phase = .slots)
    (hk : s.line.slot = some k) : invalidInSynced e p s = endSlot k e p s := by
  simp only [invalidInSynced, hp, hk]

theorem invalidInSynced_contention {e : Nat} {p : Option SlotPicture} {s : State} (hp : s.line.phase = .contention) :
    invalidInSynced e p s = loadContention e s := by
  simp only [invalidInSynced, hp]

theorem exec_receptionEnd_synced_invalid {chars : List RxChar} {s : State} (hrx : s.line.rx = .receiving)
    (hs : s.ctl.state = .synced) (hj : judge chars = none) : exec (.receptionEnd chars) s =
      .next (invalidInSynced (silencePast chars s) (pictureAtEnd chars s) (receivedInvalid chars s)) :=
  (exec_receptionEnd_invalid hrx (by simp [hs]) hj).trans
    (congrArg _ (actOnReception_synced_invalid (s := receivedInvalid chars s) hs))

/-- Settles O38: the skip point and the end of an invalid reception end the slot; in the contention the latter starts it again. -/
theorem slotsFollowed : Obligations.SlotsFollowed := by
  refine ⟨fun s => ⟨fun k hs hp htimer hrx htx hk => ?skip, fun h => ?stays⟩,
    fun chars s l e p hrx hs hj hl he hp => ⟨fun k hphase hk => ?ends, fun hphase => ?restarts⟩⟩
  case skip =>
    exact ⟨_, congrArg Host.Outcome.next (if_pos ⟨hs, hp, Option.isSome_iff_ne_none.2 htimer, hrx, htx⟩), endCurrentSlot_ended 0 hk⟩
  case stays =>
    refine congrArg Host.Outcome.next (if_neg ?_)
    rintro ⟨hs, hp, htimer, hrx, htx⟩
    rcases h with h | h | h | h | h
    · exact h hs
    · exact h hp
    · simp [h] at htimer
    · exact h hrx
    · exact h htx
  case ends =>
    subst hl he hp
    exact ⟨_, (exec_receptionEnd_synced_invalid hrx hs hj).trans
      (congrArg _ (invalidInSynced_slots (s := receivedInvalid chars s) hphase hk)), endSlot_ended _ _ _ _⟩
  case restarts =>
    subst hl he hp
    exact (exec_receptionEnd_synced_invalid hrx hs hj).trans
      (congrArg _ (invalidInSynced_contention (s := receivedInvalid chars s) hphase))

end Sys2Proof.Machine

/-! PROOF. Own frames: their beginning, their completion, collisions and driver errors (R15 to R18, R31, R32, R37, R134, R140). -/

namespace Sys2Proof.Machine

/-! ### The carried items leave (R18, R134, R140) -/

/-- With the queries' tags different, the first query of a kind that fixes the tag is the only one. -/
theorem replaceFirst_eq_map {p : Query → Bool} {tag : BitVec 4} (g : Query → Query) (hp : ∀ q, p q = true → q.tag = tag)
    (l : List Query) (h : (l.map fun q => q.tag).Nodup) : replaceFirst p g l = l.map fun q => if p q then g q else q := by
  induction l with
  | nil => rfl
  | cons q rest ih =>
    rw [List.map_cons, List.nodup_cons] at h
    rw [List.map_cons]
    by_cases hq : p q = true
    · have hrest : rest.map (fun q => if p q then g q else q) = rest := by
        refine (List.map_congr_left fun x hx => if_neg fun hpx => h.1 ?_).trans (List.map_id _)
        rw [hp q hq, ← hp x hpx]
        exact List.mem_map_of_mem hx
      rw [hrest, if_pos hq]
      exact if_pos hq
    · rw [if_neg hq, ← ih h.2]
      exact if_neg hq

/-- The query list once the carried query, if there is one, is SENT in the round. -/
def queriesSent (s : State) : List Query :=
  s.qry.queries.map fun x =>
    if s.line.txQuery = some x.tag ∧ x.state = .queued then { x with state := .sent, sendRound := s.line.round, waited := 0 }
    else x

theorem queriesSent_none {s : State} (h : s.line.txQuery = none) : queriesSent s = s.qry.queries :=
  (List.map_congr_left fun x _ => if_neg fun hx => by simp [h] at hx).trans (List.map_id _)

theorem markSent_eq {tag : BitVec 4} {s : State} (htx : s.line.txQuery = some tag)
    (h : (s.qry.queries.map fun q => q.tag).Nodup) : markSent tag s = setQueries (queriesSent s) s := by
  refine congrArg (fun l => setQueries l s) ((replaceFirst_eq_map (tag := tag) _ ?_ s.qry.queries h).trans ?_)
  · intro q hq
    exact of_decide_eq_true (Bool.and_eq_true_iff.1 hq).1
  · refine List.map_congr_left fun x _ => if_congr ?_ rfl rfl
    rw [htx, Bool.and_eq_true_iff, decide_eq_true_iff, decide_eq_true_iff, Option.some.injEq, eq_comm]

theorem consumeItems_eq {s : State} (h : (s.qry.queries.map fun q => q.tag).Nodup) :
    consumeItems s = setQry { s.qry with
      queries := queriesSent s, answers := if s.line.txAnswer then s.qry.answers.tail else s.qry.answers } s := by
  have hsent : consumeItems s = if s.line.txAnswer then removeAnswer (setQueries (queriesSent s) s)
      else setQueries (queriesSent s) s := by
    cases htx : s.line.txQuery with
    | none =>
      rw [queriesSent_none htx]
      simp only [consumeItems, htx]
      rfl
    | some tag => simp only [consumeItems, htx, markSent_eq htx h]
  rw [hsent]
  cases s.line.txAnswer <;> rfl

/-! ### The gathered SLOT frame (R15, R18) -/

/-- Settles O39: the gathered frame begins on a free line, and its completion consumes its items and ends the slot. -/
theorem ownSlotFrame : Obligations.OwnSlotFrame := by
  refine ⟨fun s => ⟨fun hs htx hfree => ?begins, fun h => ?stays, fun h => ?none⟩, fun k s l q htx hk hsound hl hq => ?completes⟩
  case begins => exact congrArg Host.Outcome.next (if_pos ⟨hs, htx, hfree⟩)
  case stays =>
    refine congrArg Host.Outcome.next (if_neg ?_)
    rintro ⟨hs, htx, hfree⟩
    rcases h with h | h | h
    · exact h hs
    · exact h htx
    · simp [h] at hfree
  case none =>
    cases htx : s.line.tx with
    | sending kind => simp [txSending, htx] at h
    | _ => simp only [exec, execTransmissionComplete, htx]
  case completes =>
    subst hl hq
    obtain ⟨-, htags, -⟩ := hsound
    have hexec : exec .transmissionComplete s = .next (endCurrentSlot 0 (txDone (consumeItems s))) := by
      simp only [exec, execTransmissionComplete, htx]
    rw [consumeItems_eq htags] at hexec
    exact ⟨_, hexec, endCurrentSlot_ended 0 hk⟩

/-! ### Collisions (R16, R18, R31, R37) -/

theorem duplicateAddress_discarded {s : State} (h : s.ctl.state = .config ∨ s.ctl.state = .fault) : duplicateAddress s = s :=
  if_neg (by rcases h with h | h <;> simp [h])

theorem driverFaulted_discarded {s : State} (h : s.ctl.state = .config ∨ s.ctl.state = .fault) : driverFaulted s = s :=
  if_neg (by rcases h with h | h <;> simp [h])

theorem driverFaulted_entered {s : State} (h : s.ctl.state = .listen ∨ s.ctl.state = .synced) (hs : PinsSound s) :
    FaultEntered .driver .driver s (driverFaulted s) := by
  rw [driverFaulted, if_pos h]
  exact enterFault_entered _ _ hs (by rcases h with h | h <;> simp [Running, h])

theorem reportDuplicate_below {s : State} (h : s.line.collisionRun < 3) : reportDuplicate s = s := if_pos h

theorem reportDuplicate_waits {s : State} (h : 3 ≤ s.line.collisionRun) (hh : s.ctl.held ≠ none) :
    reportDuplicate s = setLine { s.line with dupReport := true } s :=
  (if_neg (Nat.not_lt.2 h)).trans (if_pos (Option.isSome_iff_ne_none.2 hh))

theorem reportDuplicate_taken {s : State} (h : 3 ≤ s.line.collisionRun) (hh : s.ctl.held = none) :
    reportDuplicate s = duplicateAddress s :=
  (if_neg (Nat.not_lt.2 h)).trans (if_neg (by simp [hh]))

/-- The station after its own frame has collided, before a report is made. -/
def collidedStation (kind : FrameKind) (s : State) : State :=
  setCounters { s.par.counters with collisions := satInc s.par.counters.collisions } (setLine (collidedLine kind s.line) s)

theorem exec_collision {kind : FrameKind} {s : State} (h : s.line.tx = .sending kind) :
    exec .collision s = .next (reportDuplicate (collidedStation kind s)) := by
  simp only [exec, execCollision, h, collidedStation]

theorem collidedStation_run (kind : FrameKind) (s : State) : (collidedStation kind s).line.collisionRun =
    if s.line.collisionRun < 3 then s.line.collisionRun + 1 else s.line.collisionRun := rfl

/-- Settles O41: the third collision in a row reports a duplicate address; the report is taken, waits, or is discarded. -/
theorem collisionsCounted : Obligations.CollisionsCounted := by
  refine ⟨fun kind s c htx hc => ?sending, fun s => ⟨fun h => ?notSending, fun h => ?noReport, fun hrep hs => ?discarded,
    fun hrep hs hpins => ?taken⟩⟩
  case sending =>
    obtain rfl : collidedStation kind s = c := hc.symm
    have hexec := exec_collision htx
    have hrun := collidedStation_run kind s
    have hthird (h : 2 ≤ s.line.collisionRun) : 3 ≤ (collidedStation kind s).line.collisionRun := by
      rw [hrun]
      split <;> omega
    refine ⟨fun h => ?_, fun h hheld => ?_, fun h hheld hs hpins => ?_, fun h hheld hs => ?_⟩
    · rw [hexec, reportDuplicate_below (by rw [hrun]; split <;> omega)]
    · rw [hexec, reportDuplicate_waits (hthird h) hheld]
      rfl
    · rw [reportDuplicate_taken (hthird h) hheld] at hexec
      exact ⟨_, hexec, duplicateAddress_entered (s := collidedStation kind s) hs hpins⟩
    · rw [hexec, reportDuplicate_taken (hthird h) hheld, duplicateAddress_discarded (s := collidedStation kind s) hs]
  case notSending =>
    cases htx : s.line.tx with
    | sending kind => simp [txSending, htx] at h
    | _ => simp only [exec, execCollision, htx]
  case noReport => simp [exec, execCollisionLimit, h]
  case discarded =>
    refine congrArg Host.Outcome.next ((if_pos hrep).trans ?_)
    exact duplicateAddress_discarded (s := setLine { s.line with dupReport := false } s) hs
  case taken =>
    exact ⟨_, congrArg Host.Outcome.next (if_pos hrep),
      duplicateAddress_entered (s := setLine { s.line with dupReport := false } s) hs hpins⟩

/-! ### Driver errors (R17, R18, R32, R37) -/

theorem reportDriver_below {s : State} (h : s.line.driverRun < 2) : reportDriver s = s := if_pos h

theorem reportDriver_waits {s : State} (h : 2 ≤ s.line.driverRun) (hh : s.ctl.held ≠ none) :
    reportDriver s = setLine { s.line with driverReport := true } s :=
  (if_neg (Nat.not_lt.2 h)).trans (if_pos (Option.isSome_iff_ne_none.2 hh))

theorem reportDriver_taken {s : State} (h : 2 ≤ s.line.driverRun) (hh : s.ctl.held = none) : reportDriver s = driverFaulted s :=
  (if_neg (Nat.not_lt.2 h)).trans (if_neg (by simp [hh]))

/-- The line unit after its own frame has ended in driver error: an OPEN goes back to the full contention wait (R12, R17). -/
def driverErrorLineOf (kind : FrameKind) (s : State) : LineUnit :=
  if kind = .openFrame then contentionLine 0 s (driverErrorLine s.line) else driverErrorLine s.line

theorem exec_driverError {kind : FrameKind} {s : State} (h : s.line.tx = .sending kind) :
    exec .driverError s = .next (reportDriver (setLine (driverErrorLineOf kind s) s)) := by
  cases kind <;> simp only [exec, execDriverError, h] <;> rfl

theorem driverErrorLineOf_run (kind : FrameKind) (s : State) : (driverErrorLineOf kind s).driverRun =
    if s.line.driverRun < 2 then s.line.driverRun + 1 else s.line.driverRun := by
  cases kind <;> rfl

/-- Settles O42: the second driver error in a row reports a driver fault; the report is taken, waits, or is discarded. -/
theorem driverErrorsCounted : Obligations.DriverErrorsCounted := by
  refine ⟨fun kind s l htx hl => ?sending, fun s => ⟨fun h => ?notSending, fun h => ?noReport, fun hrep hs => ?discarded,
    fun hrep hs hpins => ?taken⟩⟩
  case sending =>
    obtain rfl : driverErrorLineOf kind s = l := hl.symm
    have hexec := exec_driverError htx
    have hrun : (setLine (driverErrorLineOf kind s) s).line.driverRun =
      if s.line.driverRun < 2 then s.line.driverRun + 1 else s.line.driverRun := driverErrorLineOf_run kind s
    have hsecond (h : 1 ≤ s.line.driverRun) : 2 ≤ (setLine (driverErrorLineOf kind s) s).line.driverRun := by
      rw [hrun]
      split <;> omega
    refine ⟨fun h => ?_, fun h hheld => ?_, fun h hheld hs hpins => ?_, fun h hheld hs => ?_⟩
    · rw [hexec, reportDriver_below (by rw [hrun]; split <;> omega)]
      rfl
    · rw [hexec, reportDriver_waits (hsecond h) hheld]
      rfl
    · rw [reportDriver_taken (hsecond h) hheld] at hexec
      exact ⟨_, hexec, driverFaulted_entered (s := setLine (driverErrorLineOf kind s) s) hs hpins⟩
    · rw [hexec, reportDriver_taken (hsecond h) hheld,
        driverFaulted_discarded (s := setLine (driverErrorLineOf kind s) s) hs]
      rfl
  case notSending =>
    cases htx : s.line.tx with
    | sending kind => simp [txSending, htx] at h
    | _ => simp only [exec, execDriverError, htx]
  case noReport => simp [exec, execDriverFault, h]
  case discarded =>
    refine congrArg Host.Outcome.next ((if_pos hrep).trans ?_)
    exact driverFaulted_discarded (s := setLine { s.line with driverReport := false } s) hs
  case taken =>
    exact ⟨_, congrArg Host.Outcome.next (if_pos hrep),
      driverFaulted_entered (s := setLine { s.line with driverReport := false } s) hs hpins⟩

/-! ### The end of a collided frame's activity (R12, R13, R16) -/

theorem exec_collidedFrameEnd {kind : FrameKind} {s : State} (h : s.line.tx = .collided kind) :
    exec .collidedFrameEnd s = .next (collidedEnd kind (setLine { s.line with tx := .idle } s)) := by
  simp only [exec, execCollidedFrameEnd, h]

theorem collidedEnd_of_ne {kind : FrameKind} {s : State} (h : s.ctl.state ≠ .synced) :
    collidedEnd kind s = loadColdStart s.ct s := if_neg h

/-- Settles O43: the end of a collided activity by the kind of the frame and the station state it finds. -/
theorem collidedActivityEnds : Obligations.CollidedActivityEnds := by
  intro s l hl
  subst hl
  refine ⟨fun k htx hs hk => ?slotFrame, fun htx hs => ?openFrame, fun kind htx hs => ?listen, fun kind htx hs => ?discarded,
    fun h => ?stays⟩
  case slotFrame =>
    refine ⟨_, (exec_collidedFrameEnd htx).trans (congrArg Host.Outcome.next (if_pos hs)), ?_⟩
    exact endCurrentSlot_ended _ hk
  case openFrame => exact (exec_collidedFrameEnd htx).trans (congrArg Host.Outcome.next (if_pos hs))
  case listen =>
    refine (exec_collidedFrameEnd htx).trans (congrArg Host.Outcome.next ?_)
    rw [collidedEnd_of_ne (by simp [hs])]
    exact loadColdStart_of_listen (s := setLine { s.line with tx := .idle } s) hs
  case discarded =>
    refine (exec_collidedFrameEnd htx).trans (congrArg Host.Outcome.next ?_)
    rw [collidedEnd_of_ne (by rcases hs with hs | hs <;> simp [hs])]
    exact loadColdStart_of_ne (s := setLine { s.line with tx := .idle } s) (by rcases hs with hs | hs <;> simp [hs])
  case stays =>
    cases htx : s.line.tx with
    | collided kind => exact absurd htx (h kind)
    | _ => simp only [exec, execCollidedFrameEnd, htx]

end Sys2Proof.Machine

/-! PROOF. Age steps, query timeouts and LONE as rows of their own (R39, R41, R68, R70, R73, R135, R141; log 6). -/

namespace Sys2Proof.Machine

/-- Two stations are one when their blocks are. -/
theorem State.eq_of_blocks {t u : State} (h : t.pending = u.pending ∧ t.line = u.line ∧ t.ctl = u.ctl ∧ t.pts = u.pts ∧
    t.mir = u.mir ∧ t.cond = u.cond ∧ t.out = u.out ∧ t.qry = u.qry ∧ t.par = u.par ∧ t.port = u.port ∧ t.evq = u.evq ∧
    t.time = u.time) : t = u := by
  obtain ⟨h1, h2, h3, h4, h5, h6, h7, h8, h9, h10, h11, h12⟩ := h
  cases t
  cases u
  simp_all

/-! ### Age steps (R41, R68, R70, R73) -/

theorem ageEntry_funext : ageEntry = agedEntry := funext ageEntry_eq

theorem ageStep_aged (s : State) :
    ageStep s = updateMirror agedEntry (fun e => decide ((agedEntry e).status ≠ e.status)) s := by
  rw [ageStep_eq, ageEntry_funext]

theorem agedEntry_report (e : Entry) : (agedEntry e).report = e.report := ageEntry_eq e ▸ ageEntry_report e

theorem staleIfReached_reached {e : Entry} (hs : e.status = .live ∨ e.status = .held) (ha : e.ageLimit.toNat ≤ e.age) :
    staleIfReached e = { e with status := .stale } := if_pos ⟨hs, ha⟩

theorem staleIfReached_stays {e : Entry} (h : (e.status ≠ .live ∧ e.status ≠ .held) ∨ e.age < e.ageLimit.toNat) :
    staleIfReached e = e := by
  refine if_neg ?_
  rintro ⟨hs, ha⟩
  rcases h with ⟨hlive, hheld⟩ | h
  · exact hs.elim hlive hheld
  · omega

theorem staleEntryAt_of_none {i : Nat} {s : State} (h : entryAt s.mir i = none) : staleEntryAt i s = s := by
  simp only [staleEntryAt, h]

theorem staleEntryAt_of_stays {i : Nat} {e : Entry} {s : State} (h : entryAt s.mir i = some e)
    (hstays : staleIfReached e = e) : staleEntryAt i s = s := by
  simp only [staleEntryAt, h, hstays, if_true]

theorem staleEntryAt_of_reached {i : Nat} {e : Entry} {s : State} (h : entryAt s.mir i = some e)
    (hs : e.status = .live ∨ e.status = .held) (ha : e.ageLimit.toNat ≤ e.age) :
    staleEntryAt i s = notify (.entries [i]) (postEntry i e { e with status := .stale }
      (setMir (s.mir.set i (some { e with status := .stale })) s)) := by
  have hne : { e with status := EntryStatus.stale } ≠ e := fun heq => by
    rw [← heq] at hs
    simp at hs
  simp only [staleEntryAt, h, staleIfReached_reached hs ha, if_neg hne]

/-- The ENTRY record of an entry that becomes STALE, if it reports (R73, R200). -/
theorem postEntry_stale_recorded {i : Nat} {e : Entry} {s : State} (hs : e.status = .live ∨ e.status = .held) :
    Recorded (if e.report then [⟨.entry, BitVec.ofNat 8 i, mkWord (3 ||| flagAt e.notOffered 4) (entryCode e.status),
      s.line.round⟩] else []) s (postEntry i e { e with status := .stale } s) := by
  have hchanged : EntryStatus.stale ≠ e.status := by rcases hs with h | h <;> simp [h]
  by_cases hr : e.report = true
  · rw [if_pos hr, postEntry, if_pos ⟨hr, .inl hchanged⟩]
    exact recorded_post _ _ _ _
  · rw [if_neg hr, postEntry, if_neg fun h => hr h.1]
    exact recorded_refl s

theorem staleEntryAt_stale {i : Nat} {e : Entry} {s : State} (hr : s.ctl.state ≠ .config) (h : entryAt s.mir i = some e)
    (hs : e.status = .live ∨ e.status = .held) (ha : e.ageLimit.toNat ≤ e.age) :
    Recorded (if e.report then [⟨.entry, BitVec.ofNat 8 i, mkWord (3 ||| flagAt e.notOffered 4) (entryCode e.status),
        s.line.round⟩] else []) s (staleEntryAt i s) ∧
      staleEntryAt i s = { s with
        mir := s.mir.set i (some { e with status := .stale })
        cond := { s.cond with notices := s.cond.notices ++ [.entries [i]] }
        evq := (staleEntryAt i s).evq, par := (staleEntryAt i s).par } := by
  rw [staleEntryAt_of_reached h hs ha]
  refine ⟨?_, State.eq_of_blocks (by simp [notify_cond, hr])⟩
  have hposted := postEntry_stale_recorded (i := i) (s := setMir (s.mir.set i (some { e with status := .stale })) s) hs
  exact (hposted.of_start rfl rfl).to_end (by simp) (by simp)

/-- Settles O44: the age-step timer gives one age step of the table; ENTRY_STALE takes what is left of it for one place. -/
theorem ageSteps : Obligations.AgeSteps := by
  refine ⟨fun s => ⟨fun hs htimer => ?step, fun h => ?noStep⟩, fun place s => ⟨fun e hr he hstatus hage => ?stale, fun h => ?stays⟩⟩
  case step =>
    have hexec : exec .ageStepTimer s = .next (ageStep (setCtl { s.ctl with ageTimer := some s.agePeriod } s)) :=
      congrArg Host.Outcome.next (if_pos ⟨hs, Option.isSome_iff_ne_none.2 htimer⟩)
    rw [ageStep_aged] at hexec
    have hr : s.ctl.state ≠ .config := by rcases hs with hs | hs <;> simp [hs]
    refine ⟨_, hexec, by simp; rfl, by simp, updateMirror_cond _ _ hr, ?_, State.eq_of_blocks (by simp)⟩
    exact (updateMirror_recorded agedEntry _ agedEntry_report (setCtl { s.ctl with ageTimer := some s.agePeriod } s)).of_start rfl rfl
  case noStep =>
    refine congrArg Host.Outcome.next (if_neg ?_)
    rintro ⟨hs, htimer⟩
    rcases h with h | h | h
    · simp [h] at hs
    · simp [h] at hs
    · simp [h] at htimer
  case stale =>
    obtain ⟨hrecorded, heq⟩ := staleEntryAt_stale hr he hstatus hage
    exact ⟨_, congrArg Host.Outcome.next (if_neg hr), hrecorded, heq⟩
  case stays =>
    by_cases hr : s.ctl.state = .config
    · exact congrArg Host.Outcome.next (if_pos hr)
    · refine congrArg Host.Outcome.next ((if_neg hr).trans ?_)
      rcases h.resolve_left hr with hnone | ⟨e, he, hstays⟩
      · exact staleEntryAt_of_none hnone
      · exact staleEntryAt_of_stays he (staleIfReached_stays hstays)

/-! ### Query timeouts (R135, R141) -/

theorem timedOut_eq (timeout : Nat) : timedOut timeout = fun q => decide (q.state = .sent ∧ timeout ≤ q.waited) := by
  funext q
  exact (Bool.decide_and _ _).symm

theorem takeTimeouts_qry (s : State) : (takeTimeouts s).qry = { s.qry with queries := s.qry.queries.map fun q =>
    if q.state = .sent ∧ s.settings.timeout.toNat ≤ q.waited then
      { q with state := .done, outcome := some .timeout, result := 0 } else q } := by
  rw [takeTimeouts, timedOut_eq]
  simp [finishQuery]

theorem takeTimeouts_only (s : State) : takeTimeouts s = { s with
    qry := (takeTimeouts s).qry, evq := (takeTimeouts s).evq, par := (takeTimeouts s).par } :=
  State.eq_of_blocks (by simp [takeTimeouts])

theorem takeTimeouts_recorded (s : State) :
    Recorded (queryRecords (fun q => decide (q.state = .sent ∧ s.settings.timeout.toNat ≤ q.waited)) .timeout s.line.round
      s.qry.queries) s (takeTimeouts s) := by
  rw [← timedOut_eq]
  exact finishWhere_recorded _ _ s

/-! ### LONE (R39, R40, R43) -/

theorem deriveMode_lone (st : StationState) (host : Bool) : deriveMode st ⟨host, true⟩ = .safe :=
  if_neg fun h => by simp [HoldReasons.empty] at h

theorem holdRecords_lone (h : HoldReasons) (round : Byte) : holdRecords h ⟨h.host, true⟩ round =
    if h.lone then [] else [⟨.hold, if h.host then 3 else 2, if h.host then 1 else 0, round⟩] := by
  obtain ⟨host, lone⟩ := h
  cases host <;> cases lone <;> rfl

/-- Settles O45: the timeouts and LONE, where the round close has left them, and nothing otherwise. -/
theorem roundLimits : Obligations.RoundLimits := by
  intro s
  refine ⟨fun hs => ?timeout, fun hs => congrArg Host.Outcome.next (if_neg hs), fun hs hlimit hcount hpins => ?lone, fun h => ?stays⟩
  case timeout =>
    exact ⟨_, congrArg Host.Outcome.next (if_pos hs), takeTimeouts_qry s, takeTimeouts_recorded s, takeTimeouts_only s⟩
  case lone =>
    have hr : Running s := by simp [Running, hs]
    have hexec : exec .lone s = .next (setHolds ⟨s.ctl.holds.host, true⟩ s) :=
      congrArg Host.Outcome.next ((if_pos hs).trans (if_pos ⟨hlimit, hcount⟩))
    have hmode : s.ctl.driveMode = deriveMode s.ctl.state s.ctl.holds := hpins.2.1
    refine ⟨_, hexec, ?_, ?_, ?_, by simp⟩
    · rw [setHolds_ctl, deriveMode_lone]
      split
      · rename_i hsame
        rw [hmode, ← hsame, deriveMode_lone]
      · rfl
    · exact setHolds_taken _ hpins hr hr rfl rfl (by simp) rfl hmode
    · rw [← holdRecords_lone]
      exact setHolds_recorded _ s
  case stays =>
    by_cases hs : s.ctl.state = .synced
    · refine congrArg Host.Outcome.next ((if_pos hs).trans (if_neg ?_))
      rintro ⟨hlimit, hcount⟩
      rcases h with h | h | h
      · exact h hs
      · omega
      · exact h hcount
    · exact congrArg Host.Outcome.next (if_neg hs)

end Sys2Proof.Machine

/-! PROOF. A peer's frame delivered: the mirror table and the station controller, then its query and its answer item, then the end of
the sender's slot (R7 to R10, R19, R39, R62 to R66, R136, R139 to R141). -/

namespace Sys2Proof.Machine

/-! ### The frame applied (R8, R39, R63 to R66) -/

theorem applyToEntry_eq (f : SlotFrame) (round : Byte) : applyToEntry f round = offeredEntry f round := by
  funext e
  have hchanged (p : Point) : (decide (p.value ≠ e.value)) = (p.value != e.value) := by
    by_cases h : p.value = e.value <;> simp [h]
  rw [applyToEntry, offeredEntry]
  by_cases hs : e.source = f.sender
  · rw [if_pos hs, if_pos hs]
    cases f.points[e.point.toNat]? with
    | none => rfl
    | some p => simp only [refreshEntry, hchanged]
  · rw [if_neg hs, if_neg hs]

theorem offeredEntry_report (f : SlotFrame) (round : Byte) (e : Entry) : (offeredEntry f round e).report = e.report := by
  unfold offeredEntry
  split
  · split <;> rfl
  · rfl

theorem applyFrame_offered (f : SlotFrame) (s : State) : applyFrame f s =
    updateMirror (offeredEntry f s.line.round) (fun e => decide (e.source = f.sender)) s := by
  rw [applyFrame_eq, applyToEntry_eq]

/-- The station that has applied a frame and not yet derived what the heard peer changes (R39). -/
def frameHeard (f : SlotFrame) (s : State) : State :=
  setCtl { s.ctl with heard := true, loneCounter := 0 } (applyFrame f s)

theorem heardPeer_applyFrame (f : SlotFrame) (s : State) :
    heardPeer (applyFrame f s) = setHolds ⟨s.ctl.holds.host, false⟩ (frameHeard f s) := by
  simp only [heardPeer, frameHeard, applyFrame_offered, updateMirror_frame]

theorem frameHeard_frame (f : SlotFrame) (s : State) :
    (frameHeard f s).ctl = { s.ctl with heard := true, loneCounter := 0 } ∧
    (frameHeard f s).mir = s.mir.map (Option.map (offeredEntry f s.line.round)) ∧ (frameHeard f s).line = s.line ∧
    (frameHeard f s).qry = s.qry ∧ (frameHeard f s).port = s.port ∧ (frameHeard f s).time = s.time ∧
    (frameHeard f s).pending = s.pending ∧ (frameHeard f s).out = s.out ∧ (frameHeard f s).pts = s.pts := by
  simp only [frameHeard, applyFrame_offered]
  simp

theorem frameHeard_cond (f : SlotFrame) {s : State} (h : s.ctl.state ≠ .config) : (frameHeard f s).cond =
    { s.cond with notices := s.cond.notices ++ entryNotice (fun e => decide (e.source = f.sender)) s.mir } := by
  rw [frameHeard, setCtl_cond, applyFrame_offered]
  exact updateMirror_cond _ _ h

theorem frameHeard_recorded (f : SlotFrame) (s : State) :
    Recorded (entryRecords (offeredEntry f s.line.round) s.line.round s.mir) s (frameHeard f s) := by
  rw [frameHeard, applyFrame_offered]
  exact (updateMirror_recorded _ _ (offeredEntry_report f s.line.round) s).to_end rfl rfl

theorem frame_applied (f : SlotFrame) (s : State) : FrameApplied f s (heardPeer (applyFrame f s)) := by
  obtain ⟨hctl, hmir, hline, hqry, hport, htime, hpending, hout, hpts⟩ := frameHeard_frame f s
  rw [heardPeer_applyFrame]
  exact {
    mir := by simp [hmir]
    ctl := by rw [setHolds_ctl, hctl]
    drive := fun hs hr => setHolds_taken _ hs hr (by rw [hctl]; exact hr) hout hpts (frameHeard_cond f hr) (by rw [hctl])
      (by rw [hctl]; exact hs.2.1)
    kept := by
      have happlied : DriveOnly s (frameHeard f s) := by
        rw [frameHeard, applyFrame_offered]
        exact (driveOnly_updateMirror _ _ s).to_end rfl rfl rfl
      exact happlied.trans (driveOnly_setHolds _ _)
    events := by
      have hhold := setHolds_recorded ⟨s.ctl.holds.host, false⟩ (frameHeard f s)
      rw [hctl, hline] at hhold
      exact (frameHeard_recorded f s).append hhold
    rest := by simp [hline, hqry, hport, htime, hpending] }

/-! ### The query item (R132, R139, R140) -/

theorem serveQueryItem_full {sender : Byte} {q : QueryItem} {s : State} (h : 4 ≤ s.qry.answers.length) :
    serveQueryItem sender q s =
      setCounters { s.par.counters with droppedQueries := satInc s.par.counters.droppedQueries } s := if_pos h

/-- A served query's answer is appended with the outcome and the value it was served with. -/
theorem serveQueryItem_served {sender : Byte} {q : QueryItem} {s : State} {o : Outcome} {v : Word}
    (h : s.qry.answers.length < 4) (hout : serveOutcome q.write q.index q.value s = (o, v)) :
    serveQueryItem sender q s =
      setQry { s.qry with answers := s.qry.answers ++ [⟨sender, q.tag, s.line.round, o, v⟩] }
        (serveStore q.write q.index q.value sender s) := by
  refine (if_neg (Nat.not_le.2 h)).trans ?_
  dsimp only
  rw [hout]
  simp

theorem serveOutcome_read {i : Byte} {v : Word} {s : State} : serveOutcome false i v s = (.ok, paramWord s i.toNat) := rfl

theorem serveOutcome_permitted {i : Byte} {v : Word} {s : State} (hi : i.toNat < 16) (hp : permitted s i = true) :
    serveOutcome true i v s = (.ok, v) := (if_pos hi).trans (if_pos hp)

theorem serveOutcome_denied {i : Byte} {v : Word} {s : State} (hi : i.toNat < 16) (hp : permitted s i = false) :
    serveOutcome true i v s = (.denied, 0) := (if_pos hi).trans (if_neg (by simp [hp]))

theorem serveOutcome_badIndex {i : Byte} {v : Word} {s : State} (hi : 16 ≤ i.toNat) :
    serveOutcome true i v s = (.badIndex, 0) := if_neg (Nat.not_lt.2 hi)

theorem serveStore_stored {i sender : Byte} {v : Word} {s : State} (hi : i.toNat < 16) (hp : permitted s i = true) :
    serveStore true i v sender s = post .param i (mkWord 0 sender) (storeWord i v s) := if_pos ⟨rfl, hi, hp⟩

theorem serveStore_unstored {w : Bool} {i sender : Byte} {v : Word} {s : State}
    (h : ¬(w = true ∧ i.toNat < 16 ∧ permitted s i = true)) : serveStore w i v sender s = s := if_neg h

/-- What a served query may leave, by its kind, its index and the write-permit mask (R139). -/
theorem serveQueryItem_outcomes (sender : Byte) (q : QueryItem) {s : State} (h : s.qry.answers.length < 4) :
    ∃ o v, (serveQueryItem sender q s).qry =
        { s.qry with answers := s.qry.answers ++ [⟨sender, q.tag, s.line.round, o, v⟩] } ∧
      (q.write = false → o = .ok ∧ v = paramWord s q.index.toNat ∧
        serveQueryItem sender q s = { s with qry := (serveQueryItem sender q s).qry }) ∧
      (q.write = true → q.index.toNat < 16 → permitted s q.index = true → o = .ok ∧ v = q.value ∧
        Recorded [⟨.param, q.index, mkWord 0 sender, s.line.round⟩] (storeWord q.index q.value s) (serveQueryItem sender q s)) ∧
      (q.write = true → q.index.toNat < 16 → permitted s q.index = false → o = .denied ∧ v = 0 ∧
        serveQueryItem sender q s = { s with qry := (serveQueryItem sender q s).qry }) ∧
      (q.write = true → 16 ≤ q.index.toNat → o = .badIndex ∧ v = 0 ∧
        serveQueryItem sender q s = { s with qry := (serveQueryItem sender q s).qry }) := by
  generalize hout : serveOutcome q.write q.index q.value s = r
  obtain ⟨o, v⟩ := r
  have hserved := serveQueryItem_served (sender := sender) h hout
  have hunstored (hs : serveStore q.write q.index q.value sender s = s) :
      serveQueryItem sender q s = { s with qry := (serveQueryItem sender q s).qry } := by
    rw [hserved, hs]
    rfl
  refine ⟨o, v, by rw [hserved]; rfl, fun hw => ?read, fun hw hi hp => ?stored, fun hw hi hp => ?denied, fun hw hi => ?badIndex⟩
  case read =>
    rw [hw, serveOutcome_read] at hout
    obtain ⟨rfl, rfl⟩ := Prod.mk.inj hout
    exact ⟨rfl, rfl, hunstored (serveStore_unstored (by simp [hw]))⟩
  case stored =>
    rw [hw, serveOutcome_permitted hi hp] at hout
    obtain ⟨rfl, rfl⟩ := Prod.mk.inj hout
    refine ⟨rfl, rfl, ?_⟩
    rw [hserved, hw, serveStore_stored hi hp]
    exact (recorded_post .param q.index (mkWord 0 sender) (storeWord q.index q.value s)).to_end rfl rfl
  case denied =>
    rw [hw, serveOutcome_denied hi hp] at hout
    obtain ⟨rfl, rfl⟩ := Prod.mk.inj hout
    exact ⟨rfl, rfl, hunstored (serveStore_unstored (by simp [hp]))⟩
  case badIndex =>
    rw [hw, serveOutcome_badIndex hi] at hout
    obtain ⟨rfl, rfl⟩ := Prod.mk.inj hout
    exact ⟨rfl, rfl, hunstored (serveStore_unstored fun hs => Nat.not_lt.2 hi hs.2.1)⟩

theorem deliverQuery_mine {f : SlotFrame} {q : QueryItem} {s : State} (hq : f.query = some q) (h : q.target.toNat = s.address) :
    deliverQuery f s = serveQueryItem f.sender q s := by
  simp only [deliverQuery, hq, if_pos h]

theorem deliverQuery_other {f : SlotFrame} {s : State} (h : ∀ q, f.query = some q → q.target.toNat ≠ s.address) :
    deliverQuery f s = s := by
  unfold deliverQuery
  split
  · exact if_neg (h _ ‹_›)
  · rfl

/-- The query item touches the query unit, the parameter store and the event queue only (R8). -/
theorem deliverQuery_frame (f : SlotFrame) (s : State) : deliverQuery f s = { s with
    qry := { s.qry with answers := (deliverQuery f s).qry.answers }
    par := { (deliverQuery f s).par with permit := s.par.permit }, evq := (deliverQuery f s).evq } := by
  cases hq : f.query with
  | none =>
    rw [deliverQuery_other (by simp [hq])]
  | some q =>
    by_cases hmine : q.target.toNat = s.address
    · rw [deliverQuery_mine hq hmine]
      obtain ⟨hpending, hline, hctl, hpts, hmir, hcond, hout, hqueries, htag, hport, htime, hpermit⟩ :=
        serveQueryItem_frame f.sender q s
      refine State.eq_of_blocks ⟨hpending, hline, hctl, hpts, hmir, hcond, hout, ?_, ?_, hport, rfl, htime⟩
      · exact QueryUnit.mk.injEq .. ▸ ⟨hqueries, htag, rfl⟩
      · exact ParamStore.mk.injEq .. ▸ ⟨rfl, hpermit, rfl⟩
    · rw [deliverQuery_other (by simpa [hq] using hmine)]

/-! ### The answer item (R136) -/

theorem replaceFirst_split {p : Query → Bool} {g : Query → Query} {before after : List Query} {q : Query}
    (hbefore : ∀ x ∈ before, p x = false) (hq : p q = true) :
    replaceFirst p g (before ++ q :: after) = before ++ g q :: after := by
  induction before with
  | nil => exact if_pos hq
  | cons x rest ih =>
    have hx : p x = false := hbefore x (List.mem_cons_self ..)
    refine (if_neg (by simp [hx])).trans (congrArg (x :: ·) (ih fun y hy => hbefore y (List.mem_cons_of_mem _ hy)))

theorem answerMatches_iff (sender : Byte) (a : AnswerItem) (q : Query) : answerMatches sender a q = true ↔
    q.state = .sent ∧ q.target = sender ∧ q.tag = a.tag ∧ q.sendRound = a.round := by
  simp [answerMatches, and_assoc]

theorem answerMatches_eq_false_iff (sender : Byte) (a : AnswerItem) (q : Query) : answerMatches sender a q = false ↔
    ¬(q.state = .sent ∧ q.target = sender ∧ q.tag = a.tag ∧ q.sendRound = a.round) := by
  rw [← answerMatches_iff, Bool.not_eq_true]

theorem takeAnswerItem_matched {sender : Byte} {a : AnswerItem} {o : Outcome} {before after : List Query} {q : Query} {s : State}
    (ho : a.outcome = some o) (hs : s.qry.queries = before ++ q :: after)
    (hbefore : ∀ x ∈ before, answerMatches sender a x = false) (hq : answerMatches sender a q = true) :
    takeAnswerItem sender a s = postQuery q o (setQueries (before ++ finishQuery o a.value q :: after) s) := by
  have hfind : s.qry.queries.find? (answerMatches sender a) = some q := by
    rw [hs, List.find?_append, List.find?_eq_none.2 (by simpa using hbefore), Option.none_or]
    exact List.find?_cons_of_pos hq
  simp only [takeAnswerItem, ho, hfind]
  rw [hs, replaceFirst_split hbefore hq]

theorem takeAnswerItem_late {sender : Byte} {a : AnswerItem} {s : State}
    (h : a.outcome = none ∨ ∀ x ∈ s.qry.queries, answerMatches sender a x = false) :
    takeAnswerItem sender a s = setCounters { s.par.counters with lateAnswers := satInc s.par.counters.lateAnswers } s := by
  rcases h with h | h
  · simp only [takeAnswerItem, h]
  · have hfind : s.qry.queries.find? (answerMatches sender a) = none := List.find?_eq_none.2 (by simpa using h)
    unfold takeAnswerItem
    rw [hfind]
    cases a.outcome <;> rfl

theorem deliverAnswer_mine {f : SlotFrame} {a : AnswerItem} {s : State} (ha : f.answer = some a)
    (h : a.requester.toNat = s.address) : deliverAnswer f s = takeAnswerItem f.sender a s := by
  simp only [deliverAnswer, ha, if_pos h]

theorem deliverAnswer_other {f : SlotFrame} {s : State} (h : ∀ a, f.answer = some a → a.requester.toNat ≠ s.address) :
    deliverAnswer f s = s := by
  unfold deliverAnswer
  split
  · exact if_neg (h _ ‹_›)
  · rfl

/-- The answer item touches the query list, the parameter store and the event queue only (R8). -/
theorem deliverAnswer_frame (f : SlotFrame) (s : State) : deliverAnswer f s = { s with
    qry := { s.qry with queries := (deliverAnswer f s).qry.queries }
    par := { (deliverAnswer f s).par with permit := s.par.permit }, evq := (deliverAnswer f s).evq } := by
  cases ha : f.answer with
  | none => rw [deliverAnswer_other (by simp [ha])]
  | some a =>
    by_cases hmine : a.requester.toNat = s.address
    · rw [deliverAnswer_mine ha hmine]
      obtain ⟨hpending, hline, hctl, hpts, hmir, hcond, hout, htag, hanswers, hport, htime, hhost, hpermit⟩ :=
        takeAnswerItem_frame f.sender a s
      refine State.eq_of_blocks ⟨hpending, hline, hctl, hpts, hmir, hcond, hout, ?_, ?_, hport, rfl, htime⟩
      · exact QueryUnit.mk.injEq .. ▸ ⟨rfl, htag, hanswers⟩
      · exact ParamStore.mk.injEq .. ▸ ⟨rfl, hpermit, rfl⟩
    · rw [deliverAnswer_other (by simpa [ha] using hmine)]

/-! ### The delivery in its slot (R7, R8, R19) -/

/-- A frame that passes the slot checks is delivered and ends its sender's slot; skipped slots count as a slip (R19). -/
theorem slotCheck_delivers {chars : List RxChar} {f : SlotFrame} {k : Nat} {s : State} (hslot : s.line.slot = some k)
    (hpeer : f.sender.toNat ≠ s.address) (hk : k ≤ f.sender.toNat) (hin : f.sender.toNat < s.slots)
    (hround : f.round = s.line.round) :
    slotCheck k f (receivedValid chars s) = endSlot f.sender.toNat 0 none (deliver f (frameTaken chars f k s)) := by
  have hchecked : slotCheck k f (receivedValid chars s) = if k < f.sender.toNat then
      endSlot f.sender.toNat 0 none (deliver f (frameTaken chars f k s)) else endSlot k 0 none (deliver f (receivedValid chars s)) := by
    refine (if_neg hpeer).trans ((if_neg (Nat.not_le.2 hin)).trans ((if_neg (Nat.not_lt.2 hk)).trans ((if_neg
      (not_not.2 hround)).trans ?_)))
    by_cases hskip : k < f.sender.toNat
    · rw [if_pos hskip, if_pos hskip]
      simp only [frameTaken, if_pos hskip]
      rfl
    · rw [if_neg hskip, if_neg hskip]
  rw [hchecked]
  by_cases hskip : k < f.sender.toNat
  · exact if_pos hskip
  · have hsame : f.sender.toNat = k := by omega
    have htaken : frameTaken chars f k s = receivedValid chars s := by
      simp only [frameTaken, hsame, Nat.lt_irrefl, if_false, ← hslot]
      rfl
    rw [if_neg hskip, htaken, hsame]

theorem exec_receptionEnd_delivers {chars : List RxChar} {f : SlotFrame} {k : Nat} {s : State} (hrx : s.line.rx = .receiving)
    (hs : s.ctl.state = .synced) (hp : s.line.phase = .slots) (hslot : s.line.slot = some k) (hj : judge chars = some (.slot f))
    (hpeer : f.sender.toNat ≠ s.address) (hk : k ≤ f.sender.toNat) (hin : f.sender.toNat < s.slots)
    (hround : f.round = s.line.round) : exec (.receptionEnd chars) s =
      .next (endSlot f.sender.toNat 0 none (deliver f (frameTaken chars f k s))) := by
  have hact := (actOnReception_synced_slot (s := receivedValid chars s) (e := silencePast chars s)
    (p := pictureAtEnd chars s) f hs).trans (slotInSynced_slots hp hslot)
  exact (exec_receptionEnd_valid hrx (by simp [hs]) hj).trans
    (congrArg Host.Outcome.next (hact.trans (slotCheck_delivers hslot hpeer hk hin hround)))

theorem FrameApplied.address {f : SlotFrame} {s t : State} (h : FrameApplied f s t) : t.address = s.address :=
  congrArg (fun c : Settings => c.address.toNat) (settings_congr (by rw [h.ctl]))

/-- Settles O35: a frame that passes the checks is applied, its items are taken, and its slot ends. -/
theorem slotFrameDelivered : Obligations.SlotFrameDelivered := by
  intro chars f k s hrx hs hp hslot hj hpeer hk hin hround
  have happlied := frame_applied f (frameTaken chars f k s)
  have haddress : (heardPeer (applyFrame f (frameTaken chars f k s))).address = s.address := happlied.address
  generalize hh : heardPeer (applyFrame f (frameTaken chars f k s)) = h at happlied haddress
  refine ⟨h, deliverAnswer f (deliverQuery f h), _, exec_receptionEnd_delivers hrx hs hp hslot hj hpeer hk hin hround, happlied,
    ?items, fun hquery hanswer => ?others, ?ended⟩
  case items =>
    rw [deliverAnswer_frame, deliverQuery_frame]
  case others =>
    have hq : deliverQuery f h = h := deliverQuery_other (by rwa [haddress])
    rw [hq]
    exact deliverAnswer_other (by rwa [haddress])
  case ended =>
    rw [deliver, hh]
    exact endSlot_ended _ _ _ _

/-- Settles O36: the query item is served or dropped, the answer item makes its query DONE or is late, after the frame is applied. -/
theorem deliveredItems : Obligations.DeliveredItems := by
  intro chars f k s hrx hs hp hslot hj hpeer hk hin hround
  have happlied := frame_applied f (frameTaken chars f k s)
  have haddress : (heardPeer (applyFrame f (frameTaken chars f k s))).address = s.address := happlied.address
  generalize hh : heardPeer (applyFrame f (frameTaken chars f k s)) = h at happlied haddress
  obtain ⟨hline, hqry, -⟩ := happlied.rest
  replace hqry : h.qry = s.qry := hqry
  have hhround : h.line.round = s.line.round := (congrArg LineUnit.round hline :)
  have hpar := happlied.events.2
  have hhost : h.par.host = s.par.host := by rw [hpar]; rfl
  have hpermit : h.par.permit = s.par.permit := by rw [hpar]; rfl
  have hd := deliverQuery_frame f h
  have hdaddress : (deliverQuery f h).address = s.address := by rw [hd]; exact haddress
  have hdqueries : (deliverQuery f h).qry.queries = s.qry.queries := by rw [hd, hqry]
  have hdround : (deliverQuery f h).line.round = s.line.round := by rw [hd]; exact hhround
  refine ⟨h, deliverQuery f h, deliverAnswer f (deliverQuery f h), _,
    exec_receptionEnd_delivers hrx hs hp hslot hj hpeer hk hin hround, happlied, ?ended, fun hother => ?otherQuery,
    fun q hq hmine hfull => ?dropped, fun q hq hmine hroom => ?served, fun hother => ?otherAnswer,
    fun a o before q after ha hmine ho hsplit hbefore h1 h2 h3 h4 => ?matched, fun a ha hmine hlate => ?late⟩
  case ended =>
    rw [deliver, hh]
    exact endSlot_ended _ _ _ _
  case otherQuery => exact deliverQuery_other (by rwa [haddress])
  case dropped =>
    rw [deliverQuery_mine hq (by rwa [haddress]), serveQueryItem_full (by rwa [hqry])]
    rfl
  case served =>
    have hmine' : deliverQuery f h = serveQueryItem f.sender q h := deliverQuery_mine hq (by rwa [haddress])
    obtain ⟨o, v, hqryAfter, hread, hstored, hdenied, hbad⟩ := serveQueryItem_outcomes f.sender q (s := h) (by rwa [hqry])
    rw [← hmine'] at hqryAfter hread hstored hdenied hbad
    rw [hqry, hhround] at hqryAfter
    have hpermitted : permitted h q.index = bitOf s.par.permit q.index.toNat := by rw [permitted, hpermit]
    rw [hpermitted] at hstored hdenied
    refine ⟨o, v, hqryAfter, ?_, hread, fun hw hi hbit => ?_, hdenied, hbad⟩
    · rw [hd]
    · obtain ⟨hok, hv, hrecorded⟩ := hstored hw hi hbit
      rw [hhround] at hrecorded
      refine ⟨hok, hv, hrecorded.of_start rfl ?_⟩
      rw [← hhost]
      rfl
  case otherAnswer => exact deliverAnswer_other (by rwa [hdaddress])
  case matched =>
    have hmatched := takeAnswerItem_matched (s := deliverQuery f h) ho (hdqueries.trans hsplit)
      (fun x hx => (answerMatches_eq_false_iff _ _ _).2 (hbefore x hx)) ((answerMatches_iff _ _ _).2 ⟨h1, h2, h3, h4⟩)
    rw [← deliverAnswer_mine ha (by rwa [hdaddress])] at hmatched
    refine ⟨?_, ?_, ?_⟩
    · rw [hmatched]
      simp [finishQuery]
    · rw [hmatched, ← hdround, ← h2, ← h3]
      exact (recorded_post .query _ _ _).of_start rfl rfl
    · rw [deliverAnswer_frame]
  case late =>
    rw [deliverAnswer_mine ha (by rwa [hdaddress]), takeAnswerItem_late]
    · rfl
    · rw [hdqueries]
      exact hlate.imp_right fun hnone x hx => (answerMatches_eq_false_iff _ _ _).2 (hnone x hx)

end Sys2Proof.Machine

/-! PROOF. A confirmed change at the output unit and at the station: the rules of the lines, one by one, their LATCH records, point 2,
the pins and point 1 (R96, R105 to R110, R118). -/

namespace Sys2Proof.Machine

/-! ### One line (R105 to R110) -/

/-- Line `i` has the same level, mark and pulse timer in both stations. -/
def SameLine (s t : State) (i : Nat) : Prop :=
  bitOf t.out.level i = bitOf s.out.level i ∧ bitOf t.out.latched i = bitOf s.out.latched i ∧
    timerAt t.out.pulse i = timerAt s.out.pulse i

theorem SameLine.refl (s : State) (i : Nat) : SameLine s s i := ⟨rfl, rfl, rfl⟩

theorem SameLine.trans {s m t : State} {i : Nat} (h : SameLine s m i) (k : SameLine m t i) : SameLine s t i :=
  ⟨k.1.trans h.1, k.2.1.trans h.2.1, k.2.2.trans h.2.2⟩

theorem lineEdge_none {k : Nat} {b : Bool} {i : Nat} {s : State} (h : ruleAt s.out.active i = none) : lineEdge k b i s = s := by
  simp only [lineEdge, h]

theorem lineEdge_host {k : Nat} {b : Bool} {i : Nat} {r : OutRule} {s : State} (h : ruleAt s.out.active i = some r)
    (hs : r.source = .host) : lineEdge k b i s = s := by
  simp only [lineEdge, h, hs]

theorem lineEdge_elsewhere {k : Nat} {b : Bool} {i : Nat} {r : OutRule} {c : Fin 16} {s : State}
    (h : ruleAt s.out.active i = some r) (hs : r.source = .cond c) (hc : c.val ≠ k) : lineEdge k b i s = s := by
  simp only [lineEdge, h, hs, if_neg hc]

/-- A line without a rule of that condition is left alone. -/
theorem lineEdge_unconcerned {k : Nat} {b : Bool} {i : Nat} {s : State}
    (h : ∀ r c, ruleAt s.out.active i = some r → r.source = .cond c → c.val ≠ k) : lineEdge k b i s = s := by
  cases hr : ruleAt s.out.active i with
  | none => exact lineEdge_none hr
  | some r =>
    cases hs : r.source with
    | host => exact lineEdge_host hr hs
    | cond c => exact lineEdge_elsewhere hr hs (h r c hr hs)

section Acting
variable {k : Nat} {b : Bool} {i : Nat} {r : OutRule} {c : Fin 16} {s : State}

theorem lineEdge_follow (h : ruleAt s.out.active i = some r) (hs : r.source = .cond c) (hc : c.val = k) (hk : r.kind = .follow) :
    lineEdge k b i s = setLevel i b s := by
  simp only [lineEdge, h, hs, if_pos hc, hk]

theorem lineEdge_invert (h : ruleAt s.out.active i = some r) (hs : r.source = .cond c) (hc : c.val = k) (hk : r.kind = .invert) :
    lineEdge k b i s = setLevel i (!b) s := by
  simp only [lineEdge, h, hs, if_pos hc, hk]

theorem lineEdge_latch (h : ruleAt s.out.active i = some r) (hs : r.source = .cond c) (hc : c.val = k) (hk : r.kind = .latch) :
    lineEdge k b i s = if b then latchEdge i k s else s := by
  simp only [lineEdge, h, hs, if_pos hc, hk]

theorem lineEdge_pulse (h : ruleAt s.out.active i = some r) (hs : r.source = .cond c) (hc : c.val = k) (hk : r.kind = .pulse) :
    lineEdge k b i s = if b then pulseEdge i r.width s else s := by
  simp only [lineEdge, h, hs, if_pos hc, hk]

theorem lineEdge_toggle (h : ruleAt s.out.active i = some r) (hs : r.source = .cond c) (hc : c.val = k) (hk : r.kind = .toggle) :
    lineEdge k b i s = if b then setLevel i (!bitOf s.out.level i) s else s := by
  simp only [lineEdge, h, hs, if_pos hc, hk]

end Acting

theorem setLevel_other {i j : Nat} (b : Bool) (s : State) (hi : i < 16) (hj : j ≠ i) : SameLine s (setLevel i b s) j := by
  refine ⟨?_, rfl, rfl⟩
  simp [setLevel, hi, hj]

theorem latchEdge_other {i j : Nat} (k : Nat) (s : State) (hi : i < 16) (hj : j ≠ i) : SameLine s (latchEdge i k s) j := by
  simp only [SameLine, latchEdge_frame]
  split
  · exact SameLine.refl s j
  · refine ⟨?_, ?_, rfl⟩ <;> simp [hi, hj]

theorem pulseEdge_other {i j : Nat} (w : Byte) (s : State) (hi : i < 16) (hj : j ≠ i) : SameLine s (pulseEdge i w s) j := by
  refine ⟨?_, rfl, ?_⟩
  · simp [pulseEdge, hi, hj]
  · simp [pulseEdge, timerAt, Ne.symm hj]

/-- The rule of line `i` touches no other line (R105). -/
theorem lineEdge_other {k i j : Nat} (b : Bool) (s : State) (hi : i < 16) (hj : j ≠ i) : SameLine s (lineEdge k b i s) j := by
  cases hr : ruleAt s.out.active i with
  | none => rw [lineEdge_none hr]; exact .refl s j
  | some r =>
    cases hs : r.source with
    | host => rw [lineEdge_host hr hs]; exact .refl s j
    | cond c =>
      by_cases hc : c.val = k
      · cases hk : r.kind with
        | follow => rw [lineEdge_follow hr hs hc hk]; exact setLevel_other _ s hi hj
        | invert => rw [lineEdge_invert hr hs hc hk]; exact setLevel_other _ s hi hj
        | latch =>
          rw [lineEdge_latch hr hs hc hk]
          split
          · exact latchEdge_other k s hi hj
          · exact .refl s j
        | pulse =>
          rw [lineEdge_pulse hr hs hc hk]
          split
          · exact pulseEdge_other _ s hi hj
          · exact .refl s j
        | toggle =>
          rw [lineEdge_toggle hr hs hc hk]
          split
          · exact setLevel_other _ s hi hj
          · exact .refl s j
      · rw [lineEdge_elsewhere hr hs hc]; exact .refl s j

/-- The rule of line `i` acts on the line by its kind (R106 to R110). -/
theorem lineEdge_acted {k i : Nat} (b : Bool) (s : State) (hi : i < 16) (hl : s.out.pulse.length = 16) :
    LineActed k b s (lineEdge k b i s) i := by
  refine ⟨fun r c hr hs hc => ?_, fun h => ?_⟩
  · cases hk : r.kind with
    | follow => rw [lineEdge_follow hr hs hc hk]; simp [setLevel, hi]
    | invert => rw [lineEdge_invert hr hs hc hk]; simp [setLevel, hi]
    | latch =>
      rw [lineEdge_latch hr hs hc hk]
      cases b with
      | false => simp
      | true => by_cases hm : bitOf s.out.latched i = true <;> simp [hm, hi]
    | pulse =>
      rw [lineEdge_pulse hr hs hc hk]
      cases b with
      | false => simp
      | true => simp [pulseEdge, hi, timerAt, hl]
    | toggle =>
      rw [lineEdge_toggle hr hs hc hk]
      cases b with
      | false => simp
      | true => simp [setLevel, hi]
  · rw [lineEdge_unconcerned h]
    exact SameLine.refl s i

/-! ### Every line, ascending (R105) -/

theorem LineActed.of_start {k i : Nat} {b : Bool} {s m t : State} (h : LineActed k b m t i) (hs : SameLine s m i)
    (ha : m.out.active = s.out.active) (ht : m.time = s.time) : LineActed k b s t i := by
  obtain ⟨hlevel, hlatched, hpulse⟩ := hs
  have htimer (w : Nat) : startTimer false w m = startTimer false w s := by simp only [startTimer, ht]
  simp only [LineActed, hlevel, hlatched, hpulse, ha, htimer] at h
  exact h

theorem LineActed.to_end {k i : Nat} {b : Bool} {s m t : State} (h : LineActed k b s m i) (hs : SameLine m t i) :
    LineActed k b s t i := by
  obtain ⟨hlevel, hlatched, hpulse⟩ := hs
  simp only [LineActed, hlevel, hlatched, hpulse]
  exact h

theorem linesEdge_other {k : Nat} (b : Bool) {l : List Nat} {i : Nat} (s : State) (hl : ∀ x ∈ l, x < 16) (hi : i ∉ l) :
    SameLine s (linesEdge k b l s) i := by
  induction l generalizing s with
  | nil => exact .refl s i
  | cons j rest ih =>
    obtain ⟨hij, hrest⟩ := not_or.1 (mt List.mem_cons.2 hi)
    exact (lineEdge_other b s (hl j (List.mem_cons_self ..)) hij).trans
      (ih (lineEdge k b j s) (fun x hx => hl x (List.mem_cons_of_mem _ hx)) hrest)

theorem linesEdge_acted {k : Nat} (b : Bool) {l : List Nat} {i : Nat} (s : State) (hl : ∀ x ∈ l, x < 16) (hn : l.Nodup)
    (hi : i ∈ l) (hp : s.out.pulse.length = 16) : LineActed k b s (linesEdge k b l s) i := by
  induction l generalizing s with
  | nil => simp at hi
  | cons j rest ih =>
    obtain ⟨hj, hrest⟩ := List.nodup_cons.1 hn
    have hlrest : ∀ x ∈ rest, x < 16 := fun x hx => hl x (List.mem_cons_of_mem _ hx)
    rcases List.mem_cons.1 hi with rfl | hmem
    · exact (lineEdge_acted b s (hl i (List.mem_cons_self ..)) hp).to_end (linesEdge_other b (lineEdge k b i s) hlrest hj)
    · have hne : i ≠ j := fun h => hj (h ▸ hmem)
      exact (ih (lineEdge k b j s) hlrest hrest hmem (by simpa using hp)).of_start
        (lineEdge_other b s (hl j (List.mem_cons_self ..)) hne) (by simp) (by simp)

/-! ### LATCH records (R107, R118) -/

/-- The LATCH record of one line, if its mark is set by the change. -/
def latchRecord (k : Nat) (b : Bool) (o : OutUnit) (round : Byte) (i : Nat) : Option EventRec :=
  match ruleAt o.active i with
  | some ⟨.cond c, .latch, _, _⟩ =>
    if c.val = k ∧ b = true ∧ bitOf o.latched i = false then
      some ⟨.latch, BitVec.ofNat 8 i, mkWord (BitVec.ofNat 8 k) (if o.mode = .drive then 0 else 1), round⟩
    else none
  | _ => none

theorem latchRecords_eq (k : Nat) (b : Bool) (o : OutUnit) (round : Byte) :
    latchRecords k b o round = (List.range 16).filterMap (latchRecord k b o round) := rfl

theorem latchRecord_congr {k : Nat} {b : Bool} {o p : OutUnit} (round : Byte) {i : Nat} (ha : p.active = o.active)
    (hm : p.mode = o.mode) (hl : bitOf p.latched i = bitOf o.latched i) :
    latchRecord k b p round i = latchRecord k b o round i := by
  simp only [latchRecord, ha, hm, hl]

theorem latchEdge_recorded (i k : Nat) (s : State) :
    Recorded (if bitOf s.out.latched i = false then
      [⟨.latch, BitVec.ofNat 8 i, mkWord (BitVec.ofNat 8 k) (if s.out.mode = .drive then 0 else 1), s.line.round⟩] else [])
      s (latchEdge i k s) := by
  by_cases hm : bitOf s.out.latched i = true
  · rw [if_neg (by simp [hm]), latchEdge, if_pos hm]
    exact recorded_refl s
  · rw [if_pos (by simpa using hm), latchEdge, if_neg hm]
    exact (recorded_post _ _ _ _).of_start rfl rfl

theorem recorded_nil_of_eq {s t : State} (hq : t.evq = s.evq) (hp : t.par = s.par) : Recorded [] s t := (recorded_nil s t).2 ⟨hq, hp⟩

theorem lineEdge_recorded (k : Nat) (b : Bool) (i : Nat) (s : State) :
    Recorded (latchRecord k b s.out s.line.round i).toList s (lineEdge k b i s) := by
  cases hr : ruleAt s.out.active i with
  | none =>
    rw [lineEdge_none hr]
    simp only [latchRecord, hr]
    exact recorded_refl s
  | some r =>
    obtain ⟨source, kind, safe, width⟩ := r
    cases source with
    | host =>
      rw [lineEdge_host hr rfl]
      simp only [latchRecord, hr]
      exact recorded_refl s
    | cond c =>
      by_cases hc : c.val = k
      · cases kind with
        | follow =>
          rw [lineEdge_follow hr rfl hc rfl]
          simp only [latchRecord, hr]
          exact recorded_nil_of_eq rfl rfl
        | invert =>
          rw [lineEdge_invert hr rfl hc rfl]
          simp only [latchRecord, hr]
          exact recorded_nil_of_eq rfl rfl
        | latch =>
          rw [lineEdge_latch hr rfl hc rfl]
          simp only [latchRecord, hr, hc, true_and]
          cases b with
          | false => exact recorded_refl s
          | true =>
            have hedge := latchEdge_recorded i k s
            by_cases hm : bitOf s.out.latched i = false
            · rw [if_pos hm] at hedge
              rw [if_pos ⟨rfl, hm⟩]
              exact hedge
            · rw [if_neg hm] at hedge
              rw [if_neg fun h => hm h.2]
              exact hedge
        | pulse =>
          rw [lineEdge_pulse hr rfl hc rfl]
          simp only [latchRecord, hr]
          cases b <;> exact recorded_nil_of_eq rfl rfl
        | toggle =>
          rw [lineEdge_toggle hr rfl hc rfl]
          simp only [latchRecord, hr]
          cases b <;> exact recorded_nil_of_eq rfl rfl
      · rw [lineEdge_elsewhere hr rfl hc]
        have hnone : latchRecord k b s.out s.line.round i = none := by
          cases kind <;> simp only [latchRecord, hr, hc, false_and, if_false]
        rw [hnone]
        exact recorded_refl s

theorem linesEdge_recorded (k : Nat) (b : Bool) {l : List Nat} (s : State) (hl : ∀ x ∈ l, x < 16) (hn : l.Nodup) :
    Recorded (l.filterMap (latchRecord k b s.out s.line.round)) s (linesEdge k b l s) := by
  induction l generalizing s with
  | nil => exact recorded_refl s
  | cons j rest ih =>
    obtain ⟨hj, hrest⟩ := List.nodup_cons.1 hn
    have hnext := ih (lineEdge k b j s) (fun x hx => hl x (List.mem_cons_of_mem _ hx)) hrest
    have hsame : rest.filterMap (latchRecord k b (lineEdge k b j s).out (lineEdge k b j s).line.round) =
        rest.filterMap (latchRecord k b s.out s.line.round) := by
      refine List.filterMap_congr fun x hx => ?_
      have hne : x ≠ j := fun h => hj (h ▸ hx)
      rw [(lineEdge_frame k b j s).2.1]
      exact latchRecord_congr _ (by simp) (by simp) (lineEdge_other b s (hl j (List.mem_cons_self ..)) hne).2.1
    rw [hsame] at hnext
    have hall := (lineEdge_recorded k b j s).append hnext
    rw [List.filterMap_cons]
    cases hrec : latchRecord k b s.out s.line.round j with
    | none => rw [hrec] at hall; exact hall
    | some r => rw [hrec] at hall; exact hall

/-! ### A confirmed change (R96) -/

/-- Two output units are one when their fields are. -/
theorem OutUnit.eq_of_fields {a b : OutUnit} (h : a.edited = b.edited ∧ a.active = b.active ∧ a.level = b.level ∧
    a.latched = b.latched ∧ a.pulse = b.pulse ∧ a.hostLevel = b.hostLevel ∧ a.copy = b.copy ∧ a.parked = b.parked ∧
    a.mode = b.mode ∧ a.pins = b.pins) : a = b := by
  obtain ⟨h1, h2, h3, h4, h5, h6, h7, h8, h9, h10⟩ := h
  cases a
  cases b
  simp_all

/-- What an update of the rule levels leaves of the output unit. -/
theorem out_of_update {o p : OutUnit} {copy : Word} (hedited : p.edited = o.edited) (hactive : p.active = o.active)
    (hhost : p.hostLevel = o.hostLevel) (hcopy : p.copy = copy) (hparked : p.parked = o.parked) (hmode : p.mode = o.mode)
    (hpins : p.pins = shownPins p) :
    p = { o with copy := copy, level := p.level, latched := p.latched, pulse := p.pulse, pins := shownPins p } :=
  OutUnit.eq_of_fields ⟨hedited, hactive, rfl, rfl, rfl, hhost, hcopy, hparked, hmode, hpins⟩

/-- The station with the confirmed result changed and the CONDITION record posted (R96). -/
def confirmPosted (k : Nat) (d : Condition) (b expiry : Bool) (s : State) : State :=
  let s1 := setCond { s.cond with confirmed := putBit s.cond.confirmed k b } s
  if d.report then post .condition (BitVec.ofNat 8 k) (conditionDetail s1 k b expiry) s1 else s1

/-- The station at the output unit's update: point 2 and the source copy have taken the result, the lines have acted. -/
def confirmActed (k : Nat) (d : Condition) (b expiry : Bool) (s : State) : State :=
  let s2 := confirmPosted k d b expiry s
  let s3 := storePoint 2 ⟨putBit (pointAt s2 2).value k b, (pointAt s2 2).quality⟩ s2
  linesEdge k b (List.range 16) (setOut { s3.out with copy := putBit s3.out.copy k b } s3)

theorem confirm_eq (k : Nat) (d : Condition) (b expiry : Bool) (s : State) :
    confirm k d b expiry s = setPins (confirmActed k d b expiry s) := rfl

@[simp] theorem confirmPosted_frame (k : Nat) (d : Condition) (b expiry : Bool) (s : State) :
    (confirmPosted k d b expiry s).line = s.line ∧ (confirmPosted k d b expiry s).ctl = s.ctl ∧
    (confirmPosted k d b expiry s).pts = s.pts ∧ (confirmPosted k d b expiry s).out = s.out ∧
    (confirmPosted k d b expiry s).time = s.time ∧
    (confirmPosted k d b expiry s).cond = { s.cond with confirmed := putBit s.cond.confirmed k b } := by
  simp only [confirmPosted]
  split <;> simp

theorem confirmPosted_recorded (k : Nat) (d : Condition) (b expiry : Bool) (s : State) :
    Recorded (if d.report = true then [⟨.condition, BitVec.ofNat 8 k, mkWord (flagAt b 0 ||| flagAt (bitOf s.cond.sure k) 1 |||
        flagAt (bitOf s.cond.raw k) 2 ||| flagAt expiry 3) 0, s.line.round⟩] else []) s (confirmPosted k d b expiry s) := by
  unfold confirmPosted
  dsimp only
  split
  · exact (recorded_post _ _ _ _).of_start rfl rfl
  · exact recorded_nil_of_eq rfl rfl

/-- The points with point 2 taken the result. -/
theorem confirmActed_frame (k : Nat) (d : Condition) (b expiry : Bool) (s : State) :
    (confirmActed k d b expiry s).ctl = s.ctl ∧ (confirmActed k d b expiry s).out.pins = s.out.pins ∧
    (confirmActed k d b expiry s).cond = { s.cond with confirmed := putBit s.cond.confirmed k b } ∧
    (confirmActed k d b expiry s).pts = { s.pts with
      points := s.pts.points.set 2 ⟨putBit (pointAt s 2).value k b, (pointAt s 2).quality⟩ } := by
  have hpoint : pointAt (confirmPosted k d b expiry s) 2 = pointAt s 2 := pointAt_congr (by simp) 2
  simp only [confirmActed, hpoint]
  simp

theorem confirmActed_recorded (k : Nat) (d : Condition) (b expiry : Bool) (s : State) :
    Recorded ((if d.report = true then [⟨.condition, BitVec.ofNat 8 k, mkWord (flagAt b 0 ||| flagAt (bitOf s.cond.sure k) 1 |||
        flagAt (bitOf s.cond.raw k) 2 ||| flagAt expiry 3) 0, s.line.round⟩] else []) ++ latchRecords k b s.out s.line.round) s
      (confirmActed k d b expiry s) := by
  have hlines := linesEdge_recorded k b (l := List.range 16)
    (setOut { (confirmPosted k d b expiry s).out with copy := putBit (confirmPosted k d b expiry s).out.copy k b }
      (storePoint 2 ⟨putBit (pointAt (confirmPosted k d b expiry s) 2).value k b,
        (pointAt (confirmPosted k d b expiry s) 2).quality⟩ (confirmPosted k d b expiry s)))
    (by simp) List.nodup_range
  have hrecords : (List.range 16).filterMap (latchRecord k b
      { (confirmPosted k d b expiry s).out with copy := putBit (confirmPosted k d b expiry s).out.copy k b }
      (confirmPosted k d b expiry s).line.round) = latchRecords k b s.out s.line.round := by
    rw [latchRecords_eq, (confirmPosted_frame k d b expiry s).1]
    refine List.filterMap_congr fun i _ => latchRecord_congr _ ?_ ?_ ?_ <;> simp
  rw [← hrecords]
  exact (confirmPosted_recorded k d b expiry s).append (hlines.of_start rfl rfl)

theorem confirmActed_line {k : Nat} (d : Condition) (b expiry : Bool) {i : Nat} (s : State) (hi : i < 16)
    (hp : s.out.pulse.length = 16) : LineActed k b s (confirmActed k d b expiry s) i := by
  refine (linesEdge_acted b _ (by simp) List.nodup_range (List.mem_range.2 hi) (by simpa using hp)).of_start ?_ ?_ ?_
  · refine ⟨?_, ?_, ?_⟩ <;> simp
  · simp
  · simp

/-- The points of a list of 8 with point 2 replaced. -/
theorem pointAt_set_two {s t : State} {p : Point} (h : t.pts.points = s.pts.points.set 2 p) {j : Nat} (hj : j ≠ 2) :
    pointAt t j = pointAt s j := by
  simp [pointAt, h, Ne.symm hj]

theorem confirm_changed (k : Nat) (d : Condition) (b expiry : Bool) (s : State) :
    ConfirmedChange k d b expiry s (confirm k d b expiry s) := by
  obtain ⟨hctl, hpins, hcond, hpts⟩ := confirmActed_frame k d b expiry s
  have hpoints : (confirmActed k d b expiry s).pts.points =
      s.pts.points.set 2 ⟨putBit (pointAt s 2).value k b, (pointAt s 2).quality⟩ := by rw [hpts]
  obtain ⟨hnotices, hprefix⟩ := setPins_cond_notices (confirmActed k d b expiry s)
  exact {
    cond := by
      rw [confirm_eq]
      rw [hcond] at hnotices hprefix
      exact ⟨hnotices, hprefix⟩
    events := by
      rw [confirm_eq]
      exact (confirmActed_recorded k d b expiry s).to_end (by simp) (by simp)
    out := by
      obtain ⟨-, -, -, -, -, -, -, -, -, -, -, -, -, -, -, -, -, -, -, -, -, -, hedited, hactive, hhost, hcopy, hparked, hmode,
        hshown, -⟩ := confirm_frame k d b expiry s
      exact out_of_update hedited hactive hhost hcopy hparked hmode hshown
    lines := fun hp i hi => by
      rw [confirm_eq]
      refine (confirmActed_line d b expiry s hi hp).to_end ⟨?_, ?_, ?_⟩ <;> simp
    pts := by
      refine ⟨?_, fun p h1 h2 => ?_⟩
      · rw [confirm_eq, setPins_pts_points, hpts]
      · rw [confirm_eq, pointAt_setPins_ne _ _ h1]
        exact pointAt_set_two hpoints h2
    point2 := fun hl => by
      rw [pointAt_confirm _ _ _ _ _ _ (by decide) (by omega), if_pos rfl]
    point1 := fun hl h1 hr => by
      have hone : pointAt (confirmActed k d b expiry s) 1 = ⟨(confirmActed k d b expiry s).out.pins, .good⟩ := by
        rw [pointAt_set_two hpoints (by decide), hpins, h1]
      have hout : (confirm k d b expiry s).out.pins = shownPins (confirmActed k d b expiry s).out := by
        rw [confirm_eq]
        simp
      have hrun : (confirmActed k d b expiry s).ctl.state ≠ .config := by rw [hctl]; exact hr
      refine ⟨?_, ?_⟩
      · rw [hout, confirm_eq, pointAt_setPins _ _ (by rw [hpoints]; simp; omega) hone, if_pos rfl]
      · rw [pinNotice, hout, confirm_eq, setPins_cond hone, hcond, hpins]
        simp only [hrun, or_false]
        split <;> simp
    rest := by simp }

/-! ### The expiry of a confirm timer (R94) -/

theorem notify_eq (n : Notice) (s : State) : notify n s =
    if s.ctl.state = .config then s else { s with cond := { s.cond with notices := s.cond.notices ++ [n] } } := rfl

theorem confirm_ctl (k : Nat) (d : Condition) (b expiry : Bool) (s : State) : (confirm k d b expiry s).ctl = s.ctl := by simp

/-- Settles O49: a running confirm timer of a defined condition confirms its result; the change of point 2 is announced after it. -/
theorem confirmTimerExpires : Obligations.ConfirmTimerExpires := by
  intro k s
  refine ⟨fun h => ?idle, fun b n d ht hd => ?running⟩
  case idle =>
    refine congrArg Host.Outcome.next ?_
    unfold expireConfirm
    split
    · rename_i ht hd
      rcases h with h | h
      · simp [h] at ht
      · simp [h] at hd
    · rfl
  case running =>
    refine ⟨_, confirm_changed k.val d b true (setConfirmTimer k.val .idle s), congrArg Host.Outcome.next ?_⟩
    have hexpire : expireConfirm k.val s = notify (.point2Bit k.val) (confirm k.val d b true (setConfirmTimer k.val .idle s)) := by
      simp only [expireConfirm, ht, hd]
    rw [hexpire, notify_eq, confirm_ctl]
    rfl

end Sys2Proof.Machine

/-! PROOF. Evaluations and passes: what one evaluation leaves, the members of a pass and its states, one before each condition (R84 to
R93, R97). -/

namespace Sys2Proof.Machine

/-! ### One evaluation (R84 to R87, R92, R93) -/

theorem confirmTime_eq (d : Condition) (b : Bool) : (if b then d.t1 else d.t0).toNat = confirmTime d b := by
  cases b <;> rfl

theorem confirmation_running {k : Nat} {d : Condition} {raw b : Bool} {n : Nat} {s : State}
    (h : timerAt s.cond.timers k = .running b n) : confirmation k d raw s =
      if raw = bitOf s.cond.confirmed k then (setConfirmTimer k .idle s, false) else (s, false) := by
  simp only [confirmation, h]

theorem confirmation_idle {k : Nat} {d : Condition} {raw : Bool} {s : State} (h : timerAt s.cond.timers k = .idle) :
    confirmation k d raw s = if raw = bitOf s.cond.confirmed k then (s, false)
      else if confirmTime d raw = 0 then (confirm k d raw false s, true)
      else (setConfirmTimer k (startTimer raw (confirmTime d raw) s) s, false) := by
  simp only [confirmation, h]

theorem storeResult_confirmed (k : Nat) (raw sure : Bool) (s : State) :
    (storeResult k raw sure s).cond.confirmed = s.cond.confirmed := rfl

theorem evaluate_evaluated (k : Nat) (d : Condition) (s : State) : Evaluated k d s (evaluate k d s).1 := by
  unfold Evaluated evaluate
  simp only [confirmTime_eq]
  generalize hraw : rawResult s k d = raw
  cases ht : timerAt s.cond.timers k with
  | running b n =>
    rw [confirmation_running (s := storeResult k raw (allKnown s d) s) ht, storeResult_confirmed]
    dsimp only
    by_cases hsame : raw = bitOf s.cond.confirmed k
    · rw [if_pos hsame, if_pos hsame]
      rfl
    · rw [if_neg hsame, if_neg hsame]
      rfl
  | idle =>
    rw [confirmation_idle (s := storeResult k raw (allKnown s d) s) ht, storeResult_confirmed]
    dsimp only
    by_cases hsame : raw = bitOf s.cond.confirmed k
    · rw [if_pos hsame, if_pos hsame]
      rfl
    · rw [if_neg hsame, if_neg hsame]
      by_cases hzero : confirmTime d raw = 0
      · rw [if_pos hzero, if_pos hzero]
        have hchanged := confirm_changed k d raw false (storeResult k raw (allKnown s d) s)
        generalize confirm k d raw false (storeResult k raw (allKnown s d) s) = t at hchanged ⊢
        exact hchanged
      · rw [if_neg hzero, if_neg hzero]
        rfl

/-! ### The record of a condition (R93) -/

/-- Condition `i` has the same record in both stations. -/
def RecordKept (i : Nat) (s t : State) : Prop :=
  bitOf t.cond.raw i = bitOf s.cond.raw i ∧ bitOf t.cond.sure i = bitOf s.cond.sure i ∧
    bitOf t.cond.confirmed i = bitOf s.cond.confirmed i ∧ timerAt t.cond.timers i = timerAt s.cond.timers i

theorem RecordKept.refl (i : Nat) (s : State) : RecordKept i s s := ⟨rfl, rfl, rfl, rfl⟩

theorem RecordKept.trans {i : Nat} {s m t : State} (h : RecordKept i s m) (k : RecordKept i m t) : RecordKept i s t :=
  ⟨k.1.trans h.1, k.2.1.trans h.2.1, k.2.2.1.trans h.2.2.1, k.2.2.2.trans h.2.2.2⟩

theorem storeResult_other {i k : Nat} (raw sure : Bool) (s : State) (hk : k < 16) (hi : i ≠ k) :
    RecordKept i s (storeResult k raw sure s) := by
  refine ⟨?_, ?_, rfl, rfl⟩ <;> simp [hk, hi]

theorem setConfirmTimer_other {i k : Nat} (t : Timer) (s : State) (hi : i ≠ k) : RecordKept i s (setConfirmTimer k t s) := by
  refine ⟨rfl, rfl, rfl, ?_⟩
  simp [timerAt, Ne.symm hi]

theorem confirm_other {i k : Nat} (d : Condition) (b e : Bool) (s : State) (hk : k < 16) (hi : i ≠ k) :
    RecordKept i s (confirm k d b e s) := by
  refine ⟨?_, ?_, ?_, ?_⟩ <;> simp [hk, hi]

/-- An evaluation of condition `k` leaves the record of every other (R90). -/
theorem evaluate_other {i k : Nat} (d : Condition) (s : State) (hk : k < 16) (hi : i ≠ k) : RecordKept i s (evaluate k d s).1 := by
  have hstored := storeResult_other (rawResult s k d) (allKnown s d) s hk hi
  simp only [evaluate]
  rcases confirmation_cases k d (rawResult s k d) (storeResult k (rawResult s k d) (allKnown s d) s) with h | h | h | h
  · rw [h.1]
    exact hstored
  · rw [h.1]
    exact hstored.trans (setConfirmTimer_other _ _ hi)
  · rw [h.1]
    exact hstored.trans (setConfirmTimer_other _ _ hi)
  · have hother := confirm_other d (rawResult s k d) false (storeResult k (rawResult s k d) (allKnown s d) s) hk hi
    rw [h.1]
    generalize confirm k d (rawResult s k d) false (storeResult k (rawResult s k d) (allKnown s d) s) = t at hother ⊢
    exact hstored.trans hother

/-- The record condition `k` has after an evaluation that gave `raw` and `sure` (R86, R92, R93). -/
def RecordEvaluated (k : Nat) (d : Condition) (raw sure : Bool) (s t : State) : Prop :=
  bitOf t.cond.raw k = raw ∧ bitOf t.cond.sure k = sure ∧
    match timerAt s.cond.timers k with
    | .idle =>
      if raw = bitOf s.cond.confirmed k then
        bitOf t.cond.confirmed k = bitOf s.cond.confirmed k ∧ timerAt t.cond.timers k = .idle
      else if confirmTime d raw = 0 then bitOf t.cond.confirmed k = raw ∧ timerAt t.cond.timers k = .idle
      else bitOf t.cond.confirmed k = bitOf s.cond.confirmed k ∧
        timerAt t.cond.timers k = startTimer raw (confirmTime d raw) s
    | .running b m => bitOf t.cond.confirmed k = bitOf s.cond.confirmed k ∧
      timerAt t.cond.timers k = (if raw = bitOf s.cond.confirmed k then .idle else .running b m)

theorem evaluate_record {k : Nat} (d : Condition) (s : State) (hk : k < 16) (hl : s.cond.timers.length = 16) :
    RecordEvaluated k d (rawResult s k d) (allKnown s d) s (evaluate k d s).1 := by
  have hevaluated := evaluate_evaluated k d s
  unfold Evaluated at hevaluated
  unfold RecordEvaluated
  simp only [confirmTime_eq] at hevaluated
  generalize rawResult s k d = raw at hevaluated ⊢
  generalize (evaluate k d s).1 = t at hevaluated ⊢
  cases ht : timerAt s.cond.timers k with
  | running b n =>
    simp only [ht] at hevaluated
    by_cases hsame : raw = bitOf s.cond.confirmed k
    · rw [if_pos hsame] at hevaluated ⊢
      subst hevaluated
      simp [hk, hl, timerAt, hsame]
    · rw [if_neg hsame] at hevaluated ⊢
      subst hevaluated
      simp [hk, ht, hsame]
  | idle =>
    simp only [ht] at hevaluated
    by_cases hsame : raw = bitOf s.cond.confirmed k
    · rw [if_pos hsame] at hevaluated ⊢
      subst hevaluated
      simp [hk, ht]
    · rw [if_neg hsame] at hevaluated ⊢
      by_cases hzero : confirmTime d raw = 0
      · rw [if_pos hzero] at hevaluated ⊢
        rw [hevaluated.cond.1]
        simp [hk, ht]
      · rw [if_neg hzero] at hevaluated ⊢
        subst hevaluated
        simp [hk, hl, timerAt]

/-! ### The change an evaluation makes at once (R89, R92) -/

/-- The second component of an evaluation says whether the confirmed result changed. -/
theorem evaluate_changed_iff {k : Nat} (d : Condition) (s : State) (hk : k < 16) :
    (evaluate k d s).2 = true ↔ bitOf (evaluate k d s).1.cond.confirmed k ≠ bitOf s.cond.confirmed k := by
  simp only [evaluate]
  rcases confirmation_cases k d (rawResult s k d) (storeResult k (rawResult s k d) (allKnown s d) s) with h | h | h | ⟨h, -, hne, -⟩
  · rw [h.1]; simp
  · rw [h.1]; simp
  · rw [h.1]; simp
  · rw [h]
    simpa [hk] using hne

theorem bitOf_concerned (c : CondUnit) (n : Notice) {i : Nat} (hi : i < 16) :
    bitOf (concerned c n) i = true ↔ ∃ d, condAt c i = some d ∧ ∃ x ∈ d.terms, Concerns n x := by
  rw [concerned, bitOf_wordOf _ _ hi]
  cases condAt c i with
  | none => simp
  | some d => simp [concernsTerm_iff]

/-! ### The stations of a pass (R88, R89) -/

/-- The members of a pass after the evaluation of condition `k`: a change confirmed at once brings in those that count its bit. -/
def membersAfter (k : Nat) (d : Condition) (members : Word) (s : State) : Word :=
  if (evaluate k d s).2 then members ||| concerned (evaluate k d s).1.cond (.point2Bit k) else members

/-- One place of a pass: the members and the station before it give those after it. -/
def passStep (k : Nat) (members : Word) (s : State) : Word × State :=
  if bitOf members k then
    match condAt s.cond k with
    | some d => (membersAfter k d members s, (evaluate k d s).1)
    | none => (members, s)
  else (members, s)

/-- The members and the station before place `k` of a pass. -/
def passAt (members : Word) (s : State) : Nat → Word × State
  | 0 => (members, s)
  | k + 1 => passStep k (passAt members s k).1 (passAt members s k).2

theorem passStep_evaluates {k : Nat} {members : Word} {d : Condition} {s : State} (hm : bitOf members k = true)
    (hd : condAt s.cond k = some d) : passStep k members s = (membersAfter k d members s, (evaluate k d s).1) := by
  simp only [passStep, hm, if_true, hd]

/-- A place that is no member, or undefined, is passed over. -/
theorem passStep_passes {k : Nat} {members : Word} {s : State} (h : ∀ d, condAt s.cond k = some d → bitOf members k = false) :
    passStep k members s = (members, s) := by
  unfold passStep
  split
  · split
    · rename_i hm _ d hd
      exact absurd hm (by simp [h d hd])
    · rfl
  · rfl

theorem passOver_cons (k : Nat) (rest : List Nat) (members : Word) (s : State) : passOver (k :: rest) members s =
    passOver rest (passStep k members s).1 (passStep k members s).2 := by
  by_cases hm : bitOf members k = true
  · cases hd : condAt s.cond k with
    | none =>
      rw [passStep_passes (by simp [hd])]
      simp only [passOver, hm, if_true, hd]
    | some d =>
      rw [passStep_evaluates hm hd]
      simp only [passOver, hm, if_true, hd, membersAfter]
  · rw [passStep_passes fun _ _ => by simpa using hm]
    exact if_neg hm

theorem passOver_range' (members : Word) (s : State) (n : Nat) : ∀ k,
    passOver (List.range' k n) (passAt members s k).1 (passAt members s k).2 = (passAt members s (k + n)).2 := by
  induction n with
  | zero => intro k; rfl
  | succ n ih =>
    intro k
    rw [List.range'_succ, passOver_cons, ← Nat.add_assoc, Nat.add_right_comm]
    exact ih (k + 1)

/-- A pass ends in the station after its last place. -/
theorem pass_eq_passAt (members : Word) (s : State) : pass members s = (passAt members s 16).2 := by
  rw [pass, List.range_eq_range']
  exact passOver_range' members s 16 0

/-- At a place a condition is evaluated or the station stands. -/
theorem passStep_cases (k : Nat) (members : Word) (s : State) :
    (passStep k members s).2 = s ∨ ∃ d, condAt s.cond k = some d ∧ bitOf members k = true ∧
      (passStep k members s).2 = (evaluate k d s).1 := by
  by_cases hm : bitOf members k = true
  · cases hd : condAt s.cond k with
    | none => exact .inl (by rw [passStep_passes (by simp [hd])])
    | some d => exact .inr ⟨d, rfl, hm, by rw [passStep_evaluates hm hd]⟩
  · exact .inl (by rw [passStep_passes fun _ _ => by simpa using hm])

/-- A property that every evaluation keeps holds before every place of a pass. -/
theorem passAt_keeps {P : State → Prop} (hev : ∀ k d s, condAt s.cond k = some d → P s → P (evaluate k d s).1)
    (members : Word) {s : State} (h : P s) (k : Nat) : P (passAt members s k).2 := by
  induction k with
  | zero => exact h
  | succ k ih =>
    rcases passStep_cases k (passAt members s k).1 (passAt members s k).2 with hstay | ⟨d, hd, -, heval⟩
    · exact hstay.symm ▸ ih
    · exact heval.symm ▸ hev k d _ hd ih

theorem passAt_defs (members : Word) (s : State) (k : Nat) : (passAt members s k).2.cond.defs = s.cond.defs :=
  passAt_keeps (P := fun t => t.cond.defs = s.cond.defs) (fun k d t _ ht => by simpa using ht) members rfl k

theorem condAt_passAt (members : Word) (s : State) (k i : Nat) : condAt (passAt members s k).2.cond i = condAt s.cond i := by
  simp only [condAt, passAt_defs]

theorem passAt_record_other {i k : Nat} (members : Word) (s : State) (hk : k < 16) (hi : i ≠ k) :
    RecordKept i (passAt members s k).2 (passAt members s (k + 1)).2 := by
  rcases passStep_cases k (passAt members s k).1 (passAt members s k).2 with hstay | ⟨d, -, -, heval⟩
  · exact hstay.symm ▸ .refl i _
  · exact heval.symm ▸ evaluate_other d _ hk hi

/-- Before its own place and after it a pass leaves the record of a condition. -/
theorem passAt_record_kept {i : Nat} (members : Word) (s : State) {a n : Nat} (hn : a + n ≤ 16)
    (hi : ∀ j, a ≤ j → j < a + n → i ≠ j) : RecordKept i (passAt members s a).2 (passAt members s (a + n)).2 := by
  induction n with
  | zero => exact .refl i _
  | succ n ih =>
    exact (ih (by omega) fun j h1 h2 => hi j h1 (by omega)).trans
      (passAt_record_other members s (by omega) (hi (a + n) (by omega) (by omega)))

/-! ### The members of a pass (R88, R89) -/

theorem passStep_members {k i : Nat} (members : Word) (s : State) (hk : k < 16) (hi : i < 16) :
    bitOf (passStep k members s).1 i = true ↔ bitOf members i = true ∨
      (bitOf (passStep k members s).2.cond.confirmed k ≠ bitOf s.cond.confirmed k ∧
        ∃ d, condAt s.cond i = some d ∧ ∃ x ∈ d.terms, Concerns (.point2Bit k) x) := by
  by_cases h : ∃ d, condAt s.cond k = some d ∧ bitOf members k = true
  · obtain ⟨d, hd, hm⟩ := h
    have hdefs (j : Nat) : condAt (evaluate k d s).1.cond j = condAt s.cond j := by
      simp only [condAt, evaluate_frame]
    rw [passStep_evaluates hm hd, ← evaluate_changed_iff d s hk, ← hdefs, ← bitOf_concerned _ _ hi]
    dsimp only [membersAfter]
    by_cases hc : (evaluate k d s).2 = true
    · simp [hc]
    · simp [hc]
  · rw [passStep_passes fun d hd => by simpa using fun hm => h ⟨d, hd, hm⟩]
    simp

/-- The members before place `k`: the first ones, and those brought in by a change confirmed below `k`. -/
theorem passAt_members (members : Word) (s : State) {i : Nat} (hi : i < 16) {k : Nat} (hk : k ≤ 16) :
    bitOf (passAt members s k).1 i = true ↔ bitOf members i = true ∨
      ∃ j < k, bitOf (passAt members s (j + 1)).2.cond.confirmed j ≠ bitOf (passAt members s j).2.cond.confirmed j ∧
        ∃ d, condAt s.cond i = some d ∧ ∃ x ∈ d.terms, Concerns (.point2Bit j) x := by
  induction k with
  | zero => simp [passAt]
  | succ k ih =>
    have hstep := passStep_members (passAt members s k).1 (passAt members s k).2 (k := k) (by omega) hi
    rw [condAt_passAt] at hstep
    change bitOf (passAt members s (k + 1)).1 i = true ↔ _ at hstep
    rw [hstep, ih (by omega)]
    constructor
    · rintro ((h | ⟨j, hj, h⟩) | h)
      · exact .inl h
      · exact .inr ⟨j, by omega, h⟩
      · exact .inr ⟨k, by omega, h⟩
    · rintro (h | ⟨j, hj, h⟩)
      · exact .inl (.inl h)
      · rcases Nat.lt_succ_iff_lt_or_eq.1 hj with hlt | rfl
        · exact .inl (.inr ⟨j, hlt, h⟩)
        · exact .inr h

end Sys2Proof.Machine

/-! PROOF. A pass in the words of the statements: which conditions it evaluates, and what it makes of a condition that reads neither the
own pins nor the own conditions (R88 to R93, R97). -/

namespace Sys2Proof.Machine

/-! ### A whole pass (R88, R89, R97) -/

/-- A condition joins a pass as a member or through a change confirmed below it. -/
def Joins (member : Condition → Prop) (members : Word) (s : State) (k : Nat) (d : Condition) : Prop :=
  member d ∨ ∃ j < k, bitOf (passAt members s (j + 1)).2.cond.confirmed j ≠ bitOf (passAt members s j).2.cond.confirmed j ∧
    ∃ x ∈ d.terms, Concerns (.point2Bit j) x

section Pass
variable {member : Condition → Prop} {members : Word} {s : State}

theorem passAt_member_iff (hm : ∀ k < 16, ∀ d, condAt s.cond k = some d → (bitOf members k = true ↔ member d)) {k : Nat}
    (hk : k < 16) {d : Condition} (hd : condAt s.cond k = some d) :
    bitOf (passAt members s k).1 k = true ↔ Joins member members s k d := by
  rw [passAt_members members s hk (Nat.le_of_lt hk), hm k hk d hd, Joins]
  simp only [hd, Option.some.injEq, exists_eq_left']

/-- A defined condition that joins is evaluated at its place. -/
theorem passAt_evaluates (hm : ∀ k < 16, ∀ d, condAt s.cond k = some d → (bitOf members k = true ↔ member d)) {k : Nat}
    (hk : k < 16) {d : Condition} (hd : condAt s.cond k = some d) (hj : Joins member members s k d) :
    (passAt members s (k + 1)).2 = (evaluate k d (passAt members s k).2).1 :=
  congrArg Prod.snd (passStep_evaluates ((passAt_member_iff hm hk hd).2 hj) (by rw [condAt_passAt, hd]))

/-- A place that is undefined, or whose condition does not join, is passed over. -/
theorem passAt_passes (hm : ∀ k < 16, ∀ d, condAt s.cond k = some d → (bitOf members k = true ↔ member d)) {k : Nat}
    (hk : k < 16) (h : ∀ d, condAt s.cond k = some d → ¬Joins member members s k d) :
    (passAt members s (k + 1)).2 = (passAt members s k).2 := by
  refine congrArg Prod.snd (passStep_passes fun d hd => ?_)
  rw [condAt_passAt] at hd
  simpa using mt (passAt_member_iff hm hk hd).1 (h d hd)

theorem pass_taken (hm : ∀ k < 16, ∀ d, condAt s.cond k = some d → (bitOf members k = true ↔ member d)) :
    PassTaken member s (pass members s) := by
  refine ⟨fun k => (passAt members s k).2, rfl, (pass_eq_passAt members s).symm, fun k hk => ⟨fun d hd hj => ?_, fun h => ?_⟩⟩
  · have hstep := passAt_evaluates hm hk hd hj
    dsimp only
    rw [hstep]
    exact evaluate_evaluated k d (passAt members s k).2
  · exact passAt_passes hm hk h

end Pass

/-! ### What a pass reads (R81, R85) -/

/-- The stations of a pass agree in all that an evaluation of a condition with terms on entries and on points other than 1 and 2
reads. -/
structure SameReadings (s t : State) : Prop where
  mir : t.mir = s.mir
  time : t.time = s.time
  points : ∀ p, p ≠ 1 → p ≠ 2 → pointAt t p = pointAt s p
  timers : t.cond.timers.length = s.cond.timers.length

theorem confirm_readings (k : Nat) (d : Condition) (b e : Bool) (s : State) : SameReadings s (confirm k d b e s) where
  mir := by simp
  time := by simp
  points := (confirm_changed k d b e s).pts.2
  timers := by simp

theorem SameReadings.trans {s m t : State} (h : SameReadings s m) (k : SameReadings m t) : SameReadings s t where
  mir := k.mir.trans h.mir
  time := k.time.trans h.time
  points p h1 h2 := (k.points p h1 h2).trans (h.points p h1 h2)
  timers := k.timers.trans h.timers

theorem evaluate_readings (k : Nat) (d : Condition) (s : State) : SameReadings s (evaluate k d s).1 := by
  have hstored : SameReadings s (storeResult k (rawResult s k d) (allKnown s d) s) := ⟨rfl, rfl, fun _ _ _ => rfl, rfl⟩
  simp only [evaluate]
  rcases confirmation_cases k d (rawResult s k d) (storeResult k (rawResult s k d) (allKnown s d) s) with h | h | h | h
  · rw [h.1]
    exact hstored
  · rw [h.1]
    exact ⟨rfl, rfl, fun _ _ _ => rfl, List.length_set⟩
  · rw [h.1]
    exact ⟨rfl, rfl, fun _ _ _ => rfl, List.length_set⟩
  · have hconfirm := confirm_readings k d (rawResult s k d) false (storeResult k (rawResult s k d) (allKnown s d) s)
    rw [h.1]
    generalize confirm k d (rawResult s k d) false (storeResult k (rawResult s k d) (allKnown s d) s) = t at hconfirm ⊢
    exact hstored.trans hconfirm

theorem passAt_readings (members : Word) (s : State) (k : Nat) : SameReadings s (passAt members s k).2 :=
  passAt_keeps (P := SameReadings s) (fun k d t _ ht => ht.trans (evaluate_readings k d t)) members
    ⟨rfl, rfl, fun _ _ _ => rfl, rfl⟩ k

/-- A condition that reads neither point 1 nor point 2. -/
def ReadsElsewhere (d : Condition) : Prop := ∀ x ∈ d.terms, x.ref ≠ .point 1 ∧ x.ref ≠ .point 2

theorem SameReadings.ref {s t : State} (h : SameReadings s t) {r : TermRef} (h1 : r ≠ .point 1) (h2 : r ≠ .point 2) :
    refValue t r = refValue s r ∧ ∀ b, refKnown t b r = refKnown s b r := by
  cases r with
  | point p =>
    have hpoint : pointAt t p.val = pointAt s p.val :=
      h.points p.val (fun hp => h1 (congrArg TermRef.point (Fin.ext hp))) (fun hp => h2 (congrArg TermRef.point (Fin.ext hp)))
    simp only [refValue, refKnown, hpoint, true_and, implies_true]
  | entry i => simp only [refValue, refKnown, h.mir, true_and, implies_true]

theorem SameReadings.known {s t : State} (h : SameReadings s t) {d : Condition} (hd : ReadsElsewhere d) :
    allKnown t d = allKnown s d := by
  rw [allKnown, allKnown, Bool.eq_iff_iff, List.all_eq_true, List.all_eq_true]
  refine forall₂_congr fun x hx => ?_
  rw [termKnown, termKnown, (h.ref (hd x hx).1 (hd x hx).2).2]

theorem any_congr {l : List Term} {p q : Term → Bool} (h : ∀ x ∈ l, p x = q x) : l.any p = l.any q := by
  rw [Bool.eq_iff_iff, List.any_eq_true, List.any_eq_true]
  exact exists_congr fun x => and_congr_right fun hx => by rw [h x hx]

theorem SameReadings.evaluated {s t : State} (h : SameReadings s t) {d : Condition} (hd : ReadsElsewhere d) :
    Machine.evaluated t d = Machine.evaluated s d := by
  have hvalue (x : Term) (hx : x ∈ d.terms) : refValue t x.ref = refValue s x.ref := (h.ref (hd x hx).1 (hd x hx).2).1
  have hfails : d.terms.any (termFails t) = d.terms.any (termFails s) :=
    any_congr fun x hx => by rw [termFails, termFails, hvalue x hx]
  have hmatches : d.terms.any (termMatches t) = d.terms.any (termMatches s) :=
    any_congr fun x hx => by rw [termMatches, termMatches, hvalue x hx]
  simp only [Machine.evaluated, hfails, hmatches]

theorem SameReadings.raw {s t : State} {k : Nat} (h : SameReadings s t) {d : Condition} (hd : ReadsElsewhere d)
    (hraw : bitOf t.cond.raw k = bitOf s.cond.raw k) : rawResult t k d = rawResult s k d := by
  simp only [rawResult, h.known hd, h.evaluated hd, hraw]

/-- A change of the own conditions brings in no condition that reads elsewhere only. -/
theorem ReadsElsewhere.not_concerned {d : Condition} (hd : ReadsElsewhere d) (j : Nat) :
    ¬∃ x ∈ d.terms, Concerns (.point2Bit j) x := fun ⟨x, hx, hc⟩ => (hd x hx).2 hc.2.1

theorem ReadsElsewhere.joins_iff {d : Condition} (hd : ReadsElsewhere d) (member : Condition → Prop) (members : Word) (s : State)
    (k : Nat) : Joins member members s k d ↔ member d := by
  refine ⟨fun h => h.resolve_right ?_, .inl⟩
  rintro ⟨j, -, -, hj⟩
  exact hd.not_concerned j hj

/-! ### One condition over a whole pass (R93) -/

theorem RecordEvaluated.of_start {k : Nat} {d : Condition} {raw sure : Bool} {s m t : State}
    (h : RecordEvaluated k d raw sure m t) (hs : RecordKept k s m) (ht : m.time = s.time) : RecordEvaluated k d raw sure s t := by
  obtain ⟨-, -, hconfirmed, htimer⟩ := hs
  have hstart (n : Nat) : startTimer raw n m = startTimer raw n s := by simp only [startTimer, ht]
  simp only [RecordEvaluated, hconfirmed, htimer, hstart] at h
  exact h

theorem RecordEvaluated.to_end {k : Nat} {d : Condition} {raw sure : Bool} {s m t : State}
    (h : RecordEvaluated k d raw sure s m) (hk : RecordKept k m t) : RecordEvaluated k d raw sure s t := by
  obtain ⟨hraw, hsure, hconfirmed, htimer⟩ := hk
  simp only [RecordEvaluated, hraw, hsure, hconfirmed, htimer]
  exact h

theorem pass_record_kept {members : Word} {s : State} {k : Nat} (hk : k < 16)
    (h : (passAt members s (k + 1)).2 = (passAt members s k).2) : RecordKept k s (pass members s) := by
  have hbefore := passAt_record_kept (i := k) members s (a := 0) (n := k) (by omega) (fun j _ hj => by omega)
  have hafter := passAt_record_kept (i := k) members s (a := k + 1) (n := 15 - k) (by omega) (fun j hj _ => by omega)
  rw [Nat.zero_add] at hbefore
  rw [h, show k + 1 + (15 - k) = 16 by omega, ← pass_eq_passAt] at hafter
  exact hbefore.trans hafter

theorem pass_record_evaluated {members : Word} {s : State} {k : Nat} {d : Condition} (hk : k < 16)
    (hl : s.cond.timers.length = 16) (hd : ReadsElsewhere d)
    (h : (passAt members s (k + 1)).2 = (evaluate k d (passAt members s k).2).1) :
    RecordEvaluated k d (rawResult s k d) (allKnown s d) s (pass members s) := by
  have hreadings := passAt_readings members s k
  have hbefore := passAt_record_kept (i := k) members s (a := 0) (n := k) (by omega) (fun j _ hj => by omega)
  have hafter := passAt_record_kept (i := k) members s (a := k + 1) (n := 15 - k) (by omega) (fun j hj _ => by omega)
  rw [Nat.zero_add] at hbefore
  rw [h, show k + 1 + (15 - k) = 16 by omega, ← pass_eq_passAt] at hafter
  have hrecord := evaluate_record d (passAt members s k).2 hk (hreadings.timers.trans hl)
  rw [hreadings.raw hd hbefore.1, hreadings.known hd] at hrecord
  exact (hrecord.of_start hbefore hreadings.time).to_end hafter

/-! ### The oldest notice (R88, R90) -/

/-- The station with its oldest notice taken. -/
def noticeTaken (rest : List Notice) (s : State) : State := setCond { s.cond with notices := rest } s

theorem exec_conditionPass {n : Notice} {rest : List Notice} {s : State} (hr : s.ctl.state ≠ .config)
    (hn : s.cond.notices = n :: rest) :
    exec .conditionPass s = .next (pass (concerned s.cond n) (noticeTaken rest s)) := by
  refine congrArg Host.Outcome.next ((if_neg hr).trans ?_)
  simp only [hn]
  rfl

theorem exec_conditionPass_stays {s : State} (h : s.ctl.state = .config ∨ s.cond.notices = []) :
    exec .conditionPass s = .next s := by
  refine congrArg Host.Outcome.next ?_
  unfold takeNotice
  split
  · rfl
  · split
    · rfl
    · rename_i hr _ _ _ hn
      rcases h with h | h
      · exact absurd h hr
      · simp [hn] at h

theorem concerned_member {n : Notice} {rest : List Notice} {s : State} (k : Nat) (hk : k < 16) (d : Condition)
    (hd : condAt (noticeTaken rest s).cond k = some d) :
    bitOf (concerned s.cond n) k = true ↔ ∃ x ∈ d.terms, Concerns n x := by
  have hd' : condAt s.cond k = some d := hd
  rw [bitOf_concerned _ _ hk]
  simp only [hd', Option.some.injEq, exists_eq_left']

theorem evaluate_notices_prefix (k : Nat) (d : Condition) (s : State) :
    s.cond.notices <+: (evaluate k d s).1.cond.notices := by
  simp only [evaluate]
  rcases confirmation_cases k d (rawResult s k d) (storeResult k (rawResult s k d) (allKnown s d) s) with h | h | h | h
  · rw [h.1]; exact List.prefix_refl _
  · rw [h.1]; exact List.prefix_refl _
  · rw [h.1]; exact List.prefix_refl _
  · have hprefix := (confirm_changed k d (rawResult s k d) false (storeResult k (rawResult s k d) (allKnown s d) s)).cond.2
    rw [h.1]
    generalize confirm k d (rawResult s k d) false (storeResult k (rawResult s k d) (allKnown s d) s) = t at hprefix ⊢
    exact hprefix

/-- A pass adds its notices behind those that wait. -/
theorem pass_notices_prefix (members : Word) (s : State) : s.cond.notices <+: (pass members s).cond.notices :=
  pass_keeps (P := fun t => s.cond.notices <+: t.cond.notices)
    (fun k d t _ _ ht => ht.trans (evaluate_notices_prefix k d t)) members s (List.prefix_refl _)

/-- Settles O48: the oldest notice is taken as one pass of the conditions it concerns; a condition that reads elsewhere than the own
pins and conditions is evaluated exactly when the notice concerns it. -/
theorem conditionPassTaken : Obligations.ConditionPassTaken := by
  intro s
  refine ⟨exec_conditionPass_stays, fun n rest hr hn => ?taken, fun n rest hr hn hsound => ?inParticular⟩
  case taken => exact ⟨_, exec_conditionPass hr hn, pass_taken concerned_member⟩
  case inParticular =>
    obtain ⟨-, hl, -⟩ := hsound
    have hframe := pass_frame (concerned s.cond n) (noticeTaken rest s)
    have hreadings : SameReadings (noticeTaken rest s) (pass (concerned s.cond n) (noticeTaken rest s)) := by
      rw [pass_eq_passAt]
      exact passAt_readings _ _ 16
    obtain ⟨l, hl'⟩ := pass_notices_prefix (concerned s.cond n) (noticeTaken rest s)
    refine ⟨_, exec_conditionPass hr hn, ⟨l, hl'.symm⟩, ?_, ?_, ?_, ?_, ?_, ?_, ?_, hreadings.points,
      fun k d hk hd helse => ⟨fun hmember => ?evaluated, fun hmember => ?kept⟩⟩
    case evaluated =>
      have hj : Joins (fun d => ∃ x ∈ d.terms, Concerns n x) (concerned s.cond n) (noticeTaken rest s) k d :=
        .inl (by simpa only [concernsTerm_iff] using hmember)
      exact pass_record_evaluated (s := noticeTaken rest s) hk hl helse (passAt_evaluates concerned_member hk hd hj)
    case kept =>
      refine pass_record_kept (s := noticeTaken rest s) hk (passAt_passes concerned_member hk fun d' hd' => ?_)
      obtain rfl : d = d' := Option.some.inj (hd.symm.trans hd')
      rw [ReadsElsewhere.joins_iff helse]
      rintro ⟨x, hx, hc⟩
      simpa [hmember x hx] using (concernsTerm_iff n x).2 hc
    all_goals simp [SameStore, noticeTaken]

end Sys2Proof.Machine

/-! PROOF. The checks of COMMIT: each step is a scan of its places for the first failure, and the configuration is consistent exactly
when no step finds one (R169 to R173). -/

namespace Sys2Proof.Machine

/-! ### A scan for the first failure (R169) -/

/-- The first of `n` places from `i` on at which a check fails. -/
def scan (f : Nat → Option Check) : Nat → Nat → Option Failure
  | _, 0 => none
  | i, n + 1 =>
    match f i with
    | some x => some (x, i)
    | none => scan f (i + 1) n

theorem scan_hit {f : Nat → Option Check} {i : Nat} {x : Check} (n : Nat) (h : f i = some x) : scan f i (n + 1) = some (x, i) := by
  simp only [scan, h]

theorem scan_miss {f : Nat → Option Check} {i : Nat} (n : Nat) (h : f i = none) : scan f i (n + 1) = scan f (i + 1) n := by
  simp only [scan, h]

theorem scan_eq_some {f : Nat → Option Check} {i n j : Nat} {x : Check} (hi : i ≤ j) (hj : j < i + n) (hx : f j = some x)
    (hfirst : ∀ k, k < j → f k = none) : scan f i n = some (x, j) := by
  induction n generalizing i with
  | zero => omega
  | succ n ih =>
    rcases Nat.eq_or_lt_of_le hi with rfl | hlt
    · exact scan_hit n hx
    · rw [scan_miss n (hfirst i hlt)]
      exact ih hlt (by omega)

theorem scan_eq_none {f : Nat → Option Check} (h : ∀ k, f k = none) (i n : Nat) : scan f i n = none := by
  induction n generalizing i with
  | zero => rfl
  | succ n ih => rw [scan_miss n (h i), ih]

theorem scan_cases (f : Nat → Option Check) (i n : Nat) : (∀ k, i ≤ k → k < i + n → f k = none) ∨
    ∃ j x, i ≤ j ∧ j < i + n ∧ f j = some x ∧ ∀ k, i ≤ k → k < j → f k = none := by
  induction n generalizing i with
  | zero => exact .inl fun k h1 h2 => by omega
  | succ n ih =>
    cases hf : f i with
    | some x => exact .inr ⟨i, x, Nat.le_refl i, by omega, hf, fun k h1 h2 => by omega⟩
    | none =>
      rcases ih (i + 1) with hnone | ⟨j, x, h1, h2, hx, hfirst⟩
      · refine .inl fun k h1 h2 => ?_
        rcases Nat.eq_or_lt_of_le h1 with rfl | hlt
        · exact hf
        · exact hnone k hlt (by omega)
      · refine .inr ⟨j, x, by omega, by omega, hx, fun k h3 h4 => ?_⟩
        rcases Nat.eq_or_lt_of_le h3 with rfl | hlt
        · exact hf
        · exact hfirst k hlt h4

/-- A check that fails at no place from `n` on: it fails nowhere, or there is a first place. -/
theorem first_or_none {f : Nat → Option Check} {n : Nat} (hout : ∀ k, n ≤ k → f k = none) :
    (∀ k, f k = none) ∨ ∃ j x, f j = some x ∧ ∀ k, k < j → f k = none := by
  rcases scan_cases f 0 n with hnone | ⟨j, x, -, -, hx, hfirst⟩
  · refine .inl fun k => ?_
    by_cases hk : k < n
    · exact hnone k (Nat.zero_le k) (by omega)
    · exact hout k (Nat.le_of_not_lt hk)
  · exact .inr ⟨j, x, hx, fun k hk => hfirst k (Nat.zero_le k) hk⟩

theorem scan_first {f : Nat → Option Check} {n j : Nat} {x : Check} (hout : ∀ k, n ≤ k → f k = none) (hx : f j = some x)
    (hfirst : ∀ k, k < j → f k = none) : scan f 0 n = some (x, j) := by
  refine scan_eq_some (Nat.zero_le j) ?_ hx hfirst
  by_contra hj
  simp [hout j (by omega)] at hx

/-! ### Step 3, the entries (R171) -/

/-- What step 3 finds at place `i`. -/
def entryCheck (s : State) (i : Nat) : Option Check :=
  match entryAt s.mir i with
  | some e =>
    if e.source = s.ctl.edited.address ∨ s.ctl.edited.slots.toNat ≤ e.source.toNat then some .entrySource
    else if twinBelow e (s.mir.take i) then some .entryDuplicate
    else none
  | none => none

theorem entryAt_append_length (below rest : List (Option Entry)) (o : Option Entry) :
    entryAt (below ++ o :: rest) below.length = o := by
  simp [entryAt]

theorem checkEntries_eq_scan (s : State) (below rest : List (Option Entry)) (h : below ++ rest = s.mir) :
    checkEntries s.ctl.edited below.length below rest = scan (entryCheck s) below.length rest.length := by
  induction rest generalizing below with
  | nil => rfl
  | cons o rest ih =>
    have hat : entryAt s.mir below.length = o := by rw [← h, entryAt_append_length]
    have htake : s.mir.take below.length = below := by rw [← h, List.take_left']; rfl
    have hrest := ih (below ++ [o]) (by rw [← h, List.append_assoc]; rfl)
    rw [List.length_append, List.length_singleton] at hrest
    rw [List.length_cons]
    cases o with
    | none =>
      rw [scan_miss _ (by simp only [entryCheck, hat]), ← hrest]
      rfl
    | some e =>
      by_cases hsource : e.source = s.ctl.edited.address ∨ s.ctl.edited.slots.toNat ≤ e.source.toNat
      · rw [scan_hit _ (x := .entrySource) (by simp only [entryCheck, hat, if_pos hsource])]
        exact if_pos hsource
      · by_cases htwin : twinBelow e below = true
        · rw [scan_hit _ (x := .entryDuplicate) (by simp only [entryCheck, hat, htake, if_neg hsource, if_pos htwin])]
          exact (if_neg hsource).trans (if_pos htwin)
        · rw [scan_miss _ (by simp only [entryCheck, hat, htake, if_neg hsource, if_neg htwin]), ← hrest]
          exact (if_neg hsource).trans (if_neg htwin)

theorem twinBelow_iff (e : Entry) (m : List (Option Entry)) (i : Nat) : twinBelow e (m.take i) = true ↔
    ∃ j < i, ∃ f, entryAt m j = some f ∧ f.source = e.source ∧ f.point = e.point := by
  simp only [twinBelow, List.any_eq_true, List.mem_take_iff_getElem]
  constructor
  · rintro ⟨o, ⟨j, hj, rfl⟩, ho⟩
    have hlen : j < m.length := by omega
    cases hm : m[j] with
    | none => simp [hm] at ho
    | some f =>
      rw [hm] at ho
      refine ⟨j, by omega, f, by simp [entryAt, hlen, hm], by simpa using ho⟩
  · rintro ⟨j, hj, f, hf, hsame⟩
    have hlen : j < m.length := by
      by_contra hge
      simp [entryAt, Nat.le_of_not_lt hge] at hf
    have hm : m[j] = some f := by simpa [entryAt, hlen] using hf
    exact ⟨some f, ⟨j, by omega, hm⟩, by simpa using hsame⟩

theorem entryCheck_eq_some_iff (s : State) (i : Nat) (x : Check) : entryCheck s i = some x ↔ EntryFails s i x := by
  unfold EntryFails
  cases hat : entryAt s.mir i with
  | none => simp [entryCheck, hat]
  | some e =>
    simp only [Option.some.injEq, exists_eq_left']
    by_cases hsource : e.source = s.ctl.edited.address ∨ s.ctl.edited.slots.toNat ≤ e.source.toNat
    · simp only [entryCheck, hat, hsource, if_true, Option.some.injEq, not_true, and_true, false_and, and_false, or_false]
      exact eq_comm
    · have hcheck : entryCheck s i = if twinBelow e (s.mir.take i) = true then some .entryDuplicate else none := by
        simp only [entryCheck, hat, if_neg hsource]
      rw [hcheck, ← twinBelow_iff]
      by_cases htwin : twinBelow e (s.mir.take i) = true
      · simp only [htwin, if_true, Option.some.injEq, hsource, not_false_iff, and_false, false_or, and_true]
        exact eq_comm
      · simp only [hsource, htwin, and_false, or_false, if_false, reduceCtorEq]

theorem entryCheck_out {s : State} {k : Nat} (h : s.mir.length ≤ k) : entryCheck s k = none := by
  simp [entryCheck, entryAt, h]

/-! ### Step 4, the conditions (R172) -/

theorem countsBelow_eq_false_iff (cu : CondUnit) (c : Nat) (mask : Word) : countsBelow cu c mask = false ↔
    ∃ k, bitOf mask k = true ∧ (c ≤ k ∨ condAt cu k = none) := by
  have hcounts : countsBelow cu c mask = true ↔ ∀ k < 16, bitOf mask k = true → k < c ∧ condAt cu k ≠ none := by
    simp only [countsBelow, List.all_eq_true, List.mem_range, Bool.or_eq_true, Bool.not_eq_true', Bool.and_eq_true,
      decide_eq_true_iff, Option.isSome_iff_ne_none]
    refine forall₂_congr fun k _ => ?_
    cases bitOf mask k <;> simp
  rw [← Bool.not_eq_true, hcounts]
  constructor
  · intro h
    simp only [not_forall, not_and_or, Nat.not_lt, not_not] at h
    obtain ⟨k, -, hbit, hfail⟩ := h
    exact ⟨k, hbit, hfail⟩
  · rintro ⟨k, hbit, hfail⟩ h
    have hk : k < 16 := by
      by_contra hge
      simp [bitOf_of_ge mask k (by omega)] at hbit
    obtain ⟨hlt, hdef⟩ := h k hk hbit
    rcases hfail with hge | hnone
    · omega
    · exact hdef hnone

theorem checkTerm_eq_some_iff (s : State) (c : Nat) (t : Term) (x : Check) : checkTerm s c t = some x ↔ TermFails s c t x := by
  unfold TermFails
  cases hr : t.ref with
  | entry i =>
    simp only [TermRef.entry.injEq, reduceCtorEq, and_false, false_and, or_false, exists_eq_left']
    cases hat : entryAt s.mir i.val with
    | none => simp [checkTerm, hr, hat, eq_comm]
    | some e => simp [checkTerm, hr, hat]
  | point p =>
    simp only [reduceCtorEq, false_and, exists_false, and_false, false_or, TermRef.point.injEq, ← countsBelow_eq_false_iff]
    by_cases h1 : p = 1
    · subst h1
      have hcheck : checkTerm s c t = some .termOwnOutput := by simp [checkTerm, hr]
      rw [hcheck]
      simpa using eq_comm
    · have hv1 : p.val ≠ 1 := fun h => h1 (Fin.ext h)
      by_cases h2 : p = 2
      · subst h2
        by_cases hc : countsBelow s.cond c t.mask = true
        · simp [checkTerm, hr, hc]
        · have hcheck : checkTerm s c t = some .termOrder := by simp [checkTerm, hr, hc]
          rw [hcheck]
          simpa [hc] using eq_comm
      · have hv2 : p.val ≠ 2 := fun h => h2 (Fin.ext h)
        simp [checkTerm, hr, h1, h2, hv1, hv2]

theorem termSound_iff (s : State) (c : Nat) (t : Term) : TermSound s c t ↔ ∀ y, ¬TermFails s c t y := by
  unfold TermSound TermFails
  cases hr : t.ref with
  | entry i =>
    simp only [TermRef.entry.injEq, reduceCtorEq, and_false, false_and, or_false, exists_eq_left', not_and]
    exact ⟨fun h _ _ => h, fun h => h .termEntry rfl⟩
  | point p =>
    have hv1 : p.val = 1 ↔ p = 1 := ⟨fun h => Fin.ext h, fun h => congrArg Fin.val h⟩
    have hv2 : p.val = 2 ↔ p = 2 := ⟨fun h => Fin.ext h, fun h => congrArg Fin.val h⟩
    simp only [reduceCtorEq, false_and, exists_false, and_false, false_or, TermRef.point.injEq, ne_eq, hv1, hv2]
    constructor
    · rintro ⟨h1, h2⟩ y (⟨-, hp⟩ | ⟨-, hp, k, hbit, hfail⟩)
      · exact h1 hp
      · obtain ⟨hlt, hdef⟩ := h2 hp k hbit
        rcases hfail with hge | hnone
        · omega
        · exact hdef hnone
    · intro h
      refine ⟨fun hp => h .termOwnOutput (.inl ⟨rfl, hp⟩), fun hp k hbit => ⟨?_, fun hnone => ?_⟩⟩
      · by_contra hge
        exact h .termOrder (.inr ⟨rfl, hp, k, hbit, .inl (Nat.le_of_not_lt hge)⟩)
      · exact h .termOrder (.inr ⟨rfl, hp, k, hbit, .inr hnone⟩)

theorem checkTerm_eq_none_iff (s : State) (c : Nat) (t : Term) : checkTerm s c t = none ↔ ∀ y, ¬TermFails s c t y := by
  rw [Option.eq_none_iff_forall_ne_some]
  exact forall_congr' fun y => not_congr (checkTerm_eq_some_iff s c t y)

theorem checkTerms_eq_none_iff (s : State) (c : Nat) (l : List Term) :
    checkTerms s c l = none ↔ ∀ u ∈ l, ∀ y, ¬TermFails s c u y := by
  induction l with
  | nil => simp [checkTerms]
  | cons t rest ih =>
    rw [List.forall_mem_cons, ← checkTerm_eq_none_iff, ← ih]
    cases ht : checkTerm s c t with
    | none => simp [checkTerms, ht]
    | some x => simp [checkTerms, ht]

theorem checkTerms_eq_some_iff (s : State) (c : Nat) (l : List Term) (x : Check) : checkTerms s c l = some x ↔
    ∃ before t after, l = before ++ t :: after ∧ (∀ u ∈ before, ∀ y, ¬TermFails s c u y) ∧ TermFails s c t x := by
  induction l with
  | nil => simp [checkTerms]
  | cons t rest ih =>
    cases ht : checkTerm s c t with
    | some y =>
      have hcheck : checkTerms s c (t :: rest) = some y := by simp only [checkTerms, ht]
      rw [hcheck]
      constructor
      · intro h
        exact ⟨[], t, rest, rfl, by simp, (checkTerm_eq_some_iff s c t x).1 (ht.trans h)⟩
      · rintro ⟨before, u, after, hsplit, hbefore, hfails⟩
        cases before with
        | nil =>
          obtain ⟨rfl, -⟩ := List.cons.inj hsplit
          rw [← ht]
          exact (checkTerm_eq_some_iff s c t x).2 hfails
        | cons v before =>
          obtain ⟨rfl, -⟩ := List.cons.inj hsplit
          exact absurd ((checkTerm_eq_some_iff s c t y).1 ht) (hbefore t (List.mem_cons_self ..) y)
    | none =>
      have hcheck : checkTerms s c (t :: rest) = checkTerms s c rest := by simp only [checkTerms, ht]
      have hsound := (checkTerm_eq_none_iff s c t).1 ht
      rw [hcheck, ih]
      constructor
      · rintro ⟨before, u, after, rfl, hbefore, hfails⟩
        exact ⟨t :: before, u, after, rfl, List.forall_mem_cons.2 ⟨hsound, hbefore⟩, hfails⟩
      · rintro ⟨before, u, after, hsplit, hbefore, hfails⟩
        cases before with
        | nil =>
          obtain ⟨rfl, -⟩ := List.cons.inj hsplit
          exact absurd hfails (hsound x)
        | cons v before =>
          obtain ⟨-, rfl⟩ := List.cons.inj hsplit
          exact ⟨before, u, after, rfl, (List.forall_mem_cons.1 hbefore).2, hfails⟩

/-- What step 4 finds at place `c`. -/
def conditionCheck (s : State) (c : Nat) : Option Check := (condAt s.cond c).bind (checkCondition s c)

theorem checkCondition_eq_some_iff (s : State) (c : Nat) (d : Condition) (x : Check) : checkCondition s c d = some x ↔
    (∃ before t after, d.terms = before ++ t :: after ∧ (∀ u ∈ before, ∀ y, ¬TermFails s c u y) ∧ TermFails s c t x) ∨
      (x = .empty ∧ (∀ u ∈ d.terms, ∀ y, ¬TermFails s c u y) ∧ ∀ u ∈ d.terms, u.mask = 0) := by
  rw [← checkTerms_eq_some_iff, ← checkTerms_eq_none_iff]
  cases hterms : checkTerms s c d.terms with
  | some y => simp [checkCondition, hterms]
  | none =>
    by_cases hempty : ∀ u ∈ d.terms, u.mask = 0
    · have hcheck : checkCondition s c d = some .empty := by simpa [checkCondition, hterms] using hempty
      rw [hcheck]
      exact ⟨fun h => .inr ⟨(Option.some.inj h).symm, rfl, hempty⟩,
        fun h => h.elim (fun hterm => by simp at hterm) fun hx => congrArg some hx.1.symm⟩
    · have hcheck : checkCondition s c d = none := by simpa [checkCondition, hterms] using hempty
      rw [hcheck]
      exact ⟨fun h => by simp at h, fun h => h.elim (fun hterm => by simp at hterm) fun hx => absurd hx.2.2 hempty⟩

theorem conditionCheck_eq_some_iff (s : State) (c : Nat) (x : Check) : conditionCheck s c = some x ↔ ConditionFails s c x := by
  simp only [conditionCheck, ConditionFails, Option.bind_eq_some_iff, checkCondition_eq_some_iff]

theorem conditionCheck_out {s : State} {k : Nat} (h : s.cond.defs.length ≤ k) : conditionCheck s k = none := by
  simp [conditionCheck, condAt, h]

theorem checkConditions_eq_scan (s : State) (c : Nat) (rest : List (Option Condition)) (h : s.cond.defs.drop c = rest) :
    checkConditions s c rest = scan (conditionCheck s) c rest.length := by
  induction rest generalizing c with
  | nil => rfl
  | cons o rest ih =>
    have hat : condAt s.cond c = o := by
      have hget : s.cond.defs[c]? = some o := by rw [← List.head?_drop, h]; rfl
      simp [condAt, hget]
    have hrest := ih (c + 1) (by rw [← List.drop_drop, h]; rfl)
    cases o with
    | none =>
      rw [List.length_cons, scan_miss _ (by simp [conditionCheck, hat])]
      exact hrest
    | some d =>
      have hcheck : conditionCheck s c = checkCondition s c d := by simp [conditionCheck, hat]
      rw [List.length_cons]
      cases hd : checkCondition s c d with
      | some x =>
        rw [scan_hit _ (hcheck.trans hd)]
        simp only [checkConditions, hd]
      | none =>
        rw [scan_miss _ (hcheck.trans hd), ← hrest]
        simp only [checkConditions, hd]

/-! ### Step 5, the output lines (R173) -/

/-- What step 5 finds at line `i`. -/
def outputCheck (s : State) (i : Nat) : Option Check :=
  match ruleAt s.out.edited i with
  | some r =>
    match r.source with
    | .cond k => if (condAt s.cond k.val).isSome then none else some .outputSource
    | .host => none
  | none => none

theorem outputCheck_eq_some_iff (s : State) (i : Nat) (x : Check) : outputCheck s i = some x ↔ OutputFails s i x := by
  unfold OutputFails
  cases hr : ruleAt s.out.edited i with
  | none => simp [outputCheck, hr]
  | some r =>
    cases hs : r.source with
    | host => simp [outputCheck, hr, hs]
    | cond k =>
      cases hc : condAt s.cond k.val with
      | some d => simp [outputCheck, hr, hs, hc]
      | none => simp [outputCheck, hr, hs, hc, eq_comm]

theorem outputCheck_out {s : State} {k : Nat} (h : s.out.edited.length ≤ k) : outputCheck s k = none := by
  simp [outputCheck, ruleAt, h]

theorem checkOutputs_eq_scan (s : State) (i : Nat) (rest : List (Option OutRule)) (h : s.out.edited.drop i = rest) :
    checkOutputs s i rest = scan (outputCheck s) i rest.length := by
  induction rest generalizing i with
  | nil => rfl
  | cons o rest ih =>
    have hat : ruleAt s.out.edited i = o := by
      have hget : s.out.edited[i]? = some o := by rw [← List.head?_drop, h]; rfl
      simp [ruleAt, hget]
    have hrest := ih (i + 1) (by rw [← List.drop_drop, h]; rfl)
    rw [List.length_cons]
    cases o with
    | none =>
      rw [scan_miss _ (by simp only [outputCheck, hat]), ← hrest]
      rfl
    | some r =>
      cases hs : r.source with
      | host =>
        rw [scan_miss _ (by simp only [outputCheck, hat, hs]), ← hrest]
        simp only [checkOutputs, hs]
      | cond k =>
        by_cases hc : (condAt s.cond k.val).isSome = true
        · rw [scan_miss _ (by simp only [outputCheck, hat, hs, if_pos hc]), ← hrest]
          simp only [checkOutputs, hs, if_pos hc]
        · rw [scan_hit _ (x := .outputSource) (by simp only [outputCheck, hat, hs, if_neg hc])]
          simp only [checkOutputs, hs, if_neg hc]

/-! ### The five steps (R169) -/

theorem checkEntries_scan (s : State) : checkEntries s.ctl.edited 0 [] s.mir = scan (entryCheck s) 0 s.mir.length :=
  checkEntries_eq_scan s [] s.mir rfl

theorem checkConditions_scan (s : State) :
    checkConditions s 0 s.cond.defs = scan (conditionCheck s) 0 s.cond.defs.length := checkConditions_eq_scan s 0 _ rfl

theorem checkOutputs_scan (s : State) : checkOutputs s 0 s.out.edited = scan (outputCheck s) 0 s.out.edited.length :=
  checkOutputs_eq_scan s 0 _ rfl

theorem validate_noStation {s : State} (h : s.ctl.editedSet = false) : validate s = some (.noStation, 0) := if_pos h

theorem validate_address {s : State} (h : ¬s.ctl.editedSet = false) (ha : s.ctl.edited.slots.toNat ≤ s.ctl.edited.address.toNat) :
    validate s = some (.address, 0) := (if_neg h).trans (if_pos ha)

section Steps
variable {s : State} (hset : ¬s.ctl.editedSet = false) (haddress : ¬s.ctl.edited.slots.toNat ≤ s.ctl.edited.address.toNat)
include hset haddress

theorem validate_entries {f : Failure} (h : scan (entryCheck s) 0 s.mir.length = some f) : validate s = some f := by
  rw [validate, if_neg hset, if_neg haddress]
  simp only [checkEntries_scan, h]

theorem validate_conditions {f : Failure} (he : scan (entryCheck s) 0 s.mir.length = none)
    (h : scan (conditionCheck s) 0 s.cond.defs.length = some f) : validate s = some f := by
  rw [validate, if_neg hset, if_neg haddress]
  simp only [checkEntries_scan, he, checkConditions_scan, h]

theorem validate_outputs (he : scan (entryCheck s) 0 s.mir.length = none)
    (hc : scan (conditionCheck s) 0 s.cond.defs.length = none) :
    validate s = scan (outputCheck s) 0 s.out.edited.length := by
  rw [validate, if_neg hset, if_neg haddress]
  simp only [checkEntries_scan, he, checkConditions_scan, hc, checkOutputs_scan]

end Steps

theorem entryCheck_none_iff (s : State) (i : Nat) : entryCheck s i = none ↔ ∀ y, ¬EntryFails s i y := by
  rw [Option.eq_none_iff_forall_ne_some]
  exact forall_congr' fun y => not_congr (entryCheck_eq_some_iff s i y)

theorem conditionCheck_none_iff (s : State) (c : Nat) : conditionCheck s c = none ↔ ∀ y, ¬ConditionFails s c y := by
  rw [Option.eq_none_iff_forall_ne_some]
  exact forall_congr' fun y => not_congr (conditionCheck_eq_some_iff s c y)

theorem outputCheck_none_iff (s : State) (i : Nat) : outputCheck s i = none ↔ ∀ y, ¬OutputFails s i y := by
  rw [Option.eq_none_iff_forall_ne_some]
  exact forall_congr' fun y => not_congr (outputCheck_eq_some_iff s i y)

/-- Where the station is set, the first failure is that of the first step that finds one. -/
theorem firstFailure_steps {s : State} (hset : ¬s.ctl.editedSet = false)
    (haddress : ¬s.ctl.edited.slots.toNat ≤ s.ctl.edited.address.toNat) (x : Check) (i : Nat) : FirstFailure s x i ↔
      (entryCheck s i = some x ∧ ∀ j < i, entryCheck s j = none) ∨
      ((∀ j, entryCheck s j = none) ∧ conditionCheck s i = some x ∧ ∀ j < i, conditionCheck s j = none) ∨
      ((∀ j, entryCheck s j = none) ∧ (∀ j, conditionCheck s j = none) ∧ outputCheck s i = some x ∧
        ∀ j < i, outputCheck s j = none) := by
  unfold FirstFailure
  dsimp only
  rw [if_neg hset, if_neg haddress]
  simp only [entryCheck_none_iff, conditionCheck_none_iff, outputCheck_none_iff, entryCheck_eq_some_iff,
    conditionCheck_eq_some_iff, outputCheck_eq_some_iff]

/-- The validation finds the first failure. -/
theorem validate_of_firstFailure {s : State} {x : Check} {i : Nat} (h : FirstFailure s x i) : validate s = some (x, i) := by
  by_cases hset : s.ctl.editedSet = false
  · obtain ⟨rfl, rfl⟩ : x = .noStation ∧ i = 0 := by rwa [FirstFailure, if_pos hset] at h
    exact validate_noStation hset
  by_cases haddress : s.ctl.edited.slots.toNat ≤ s.ctl.edited.address.toNat
  · obtain ⟨rfl, rfl⟩ : x = .address ∧ i = 0 := by rwa [FirstFailure, if_neg hset, if_pos haddress] at h
    exact validate_address hset haddress
  rcases (firstFailure_steps hset haddress x i).1 h with ⟨hfails, hfirst⟩ | ⟨hentries, hfails, hfirst⟩ | ⟨hentries, hconditions, hfails, hfirst⟩
  · exact validate_entries hset haddress (scan_first (fun _ => entryCheck_out) hfails hfirst)
  · exact validate_conditions hset haddress (scan_eq_none hentries _ _) (scan_first (fun _ => conditionCheck_out) hfails hfirst)
  · rw [validate_outputs hset haddress (scan_eq_none hentries _ _) (scan_eq_none hconditions _ _)]
    exact scan_first (fun _ => outputCheck_out) hfails hfirst

theorem mask_eq_zero_or (l : List Term) : (∃ t ∈ l, t.mask ≠ 0) ↔ ¬∀ t ∈ l, t.mask = 0 := by
  simp only [not_forall, exists_prop, ne_eq]

/-- A configuration is consistent when the station is set and no place fails. -/
theorem consistent_iff (s : State) : Consistent s ↔
    (s.ctl.editedSet = true ∧ s.ctl.edited.address.toNat < s.ctl.edited.slots.toNat) ∧ (∀ i y, ¬EntryFails s i y) ∧
      (∀ c y, ¬ConditionFails s c y) ∧ ∀ i y, ¬OutputFails s i y := by
  constructor
  · rintro ⟨hstation, hsources, htwins, hterms, hdefined⟩
    refine ⟨hstation, fun i y => ?_, fun c y => ?_, fun i y => ?_⟩
    · rintro ⟨e, he, ⟨-, hsource⟩ | ⟨-, -, j, hj, f, hf, hsame⟩⟩
      · obtain ⟨hne, hlt⟩ := hsources i e he
        rcases hsource with heq | hge
        · exact hne heq
        · omega
      · exact htwins j i f e hj hf he hsame
    · rintro ⟨d, hd, ⟨before, t, after, hsplit, -, hfails⟩ | ⟨-, -, hempty⟩⟩
      · exact (termSound_iff s c t).1 ((hterms c d hd).2 t (by simp [hsplit])) y hfails
      · exact (mask_eq_zero_or d.terms).1 (hterms c d hd).1 hempty
    · rintro ⟨-, r, k, hr, hsource, hnone⟩
      exact hdefined i r k hr hsource hnone
  · rintro ⟨hstation, hentries, hconditions, houtputs⟩
    have hsound (i : Nat) (e : Entry) (he : entryAt s.mir i = some e) :
        ¬(e.source = s.ctl.edited.address ∨ s.ctl.edited.slots.toNat ≤ e.source.toNat) := fun h =>
      hentries i .entrySource ⟨e, he, .inl ⟨rfl, h⟩⟩
    have hterm (c : Nat) (d : Condition) (hd : condAt s.cond c = some d) : checkTerms s c d.terms = none := by
      cases hcheck : checkTerms s c d.terms with
      | none => rfl
      | some x => exact absurd ⟨d, hd, .inl ((checkTerms_eq_some_iff s c d.terms x).1 hcheck)⟩ (hconditions c x)
    refine ⟨hstation, fun i e he => ?_, fun i j e f hlt he hf hsame => ?_, fun c d hd => ⟨?_, ?_⟩, fun i r k hr hs hnone => ?_⟩
    · obtain ⟨hne, hlt⟩ := not_or.1 (hsound i e he)
      exact ⟨hne, Nat.lt_of_not_le hlt⟩
    · exact hentries j .entryDuplicate ⟨f, hf, .inr ⟨rfl, hsound j f hf, i, hlt, e, he, hsame⟩⟩
    · rw [mask_eq_zero_or]
      exact fun hempty => hconditions c .empty ⟨d, hd, .inr ⟨rfl, (checkTerms_eq_none_iff s c d.terms).1 (hterm c d hd), hempty⟩⟩
    · exact fun t ht => (termSound_iff s c t).2 ((checkTerms_eq_none_iff s c d.terms).1 (hterm c d hd) t ht)
    · exact houtputs i .outputSource ⟨rfl, r, k, hr, hs, hnone⟩

theorem validate_of_consistent {s : State} (h : Consistent s) : validate s = none := by
  obtain ⟨⟨hset, haddress⟩, hentries, hconditions, houtputs⟩ := (consistent_iff s).1 h
  simp only [← entryCheck_none_iff, ← conditionCheck_none_iff, ← outputCheck_none_iff] at hentries hconditions houtputs
  rw [validate_outputs (by simp [hset]) (by omega) (scan_eq_none hentries _ _) (scan_eq_none hconditions _ _)]
  exact scan_eq_none houtputs _ _

theorem firstFailure_of_not_consistent {s : State} (h : ¬Consistent s) : ∃ x i, FirstFailure s x i := by
  by_cases hset : s.ctl.editedSet = false
  · exact ⟨.noStation, 0, by rw [FirstFailure, if_pos hset]; exact ⟨rfl, rfl⟩⟩
  by_cases haddress : s.ctl.edited.slots.toNat ≤ s.ctl.edited.address.toNat
  · exact ⟨.address, 0, by rw [FirstFailure, if_neg hset, if_pos haddress]; exact ⟨rfl, rfl⟩⟩
  simp only [firstFailure_steps hset haddress]
  rcases first_or_none (f := entryCheck s) (fun _ => entryCheck_out) with hentries | ⟨j, x, hx, hfirst⟩
  · rcases first_or_none (f := conditionCheck s) (fun _ => conditionCheck_out) with hconditions | ⟨j, x, hx, hfirst⟩
    · rcases first_or_none (f := outputCheck s) (fun _ => outputCheck_out) with houtputs | ⟨j, x, hx, hfirst⟩
      · simp only [entryCheck_none_iff, conditionCheck_none_iff, outputCheck_none_iff] at hentries hconditions houtputs
        exact absurd ((consistent_iff s).2 ⟨⟨by simpa using hset, by omega⟩, hentries, hconditions, houtputs⟩) h
      · exact ⟨x, j, .inr (.inr ⟨hentries, hconditions, hx, hfirst⟩)⟩
    · exact ⟨x, j, .inr (.inl ⟨hentries, hx, hfirst⟩)⟩
  · exact ⟨x, j, .inl ⟨hx, hfirst⟩⟩

/-! ### COMMIT (R169, R175) -/

theorem cmdCommit_accepted {s : State} (h : s.ctl.state = .config) (hv : validate s = none) :
    cmdCommit [] s = (some ⟨.ok, wordBytes (signatureOf s.ctl.edited)⟩, commitNow s) := by
  simp only [cmdCommit, inConfig_of_config h, hv]
  rfl

theorem cmdCommit_refused {s : State} {x : Check} {i : Nat} (h : s.ctl.state = .config) (hv : validate s = some (x, i)) :
    cmdCommit [] s = (some ⟨.invalidConfig, [checkCode x, BitVec.ofNat 8 i]⟩, s) := by
  simp only [cmdCommit, inConfig_of_config h, hv]

/-- The checks do not look at the port. -/
theorem Consistent.setPort {s : State} (h : Consistent s) (p : HostPort) : Consistent (setPort p s) :=
  ⟨h.station, h.sources, h.twins, h.terms, h.sourcesDefined⟩

theorem exec_commit_accepted {s : State} (hp : PortFree s) (hs : s.ctl.state = .config) (hc : Consistent s) :
    ∃ p, exec (.commit []) s = .next (setPort (withReply .ok (wordBytes (signatureOf s.ctl.edited)) s).port
      (commitNow (setPort p s))) :=
  exec_replied rfl rfl hp (fun p => cmdCommit_accepted (s := setPort p s) hs (validate_of_consistent (hc.setPort p)))
    (by simp [commitNow_eq])

/-- Settles O15: the validation is the search for the first failure, and there is none exactly in a consistent configuration. -/
theorem commitChecks : Obligations.CommitChecks := by
  intro s hp hs
  refine ⟨fun hc => ?accepted, firstFailure_of_not_consistent, fun x i hfirst => ?refused⟩
  case accepted =>
    obtain ⟨p, hexec⟩ := exec_commit_accepted hp hs hc
    exact ⟨_, hexec, by simp [commitNow_eq], rfl⟩
  case refused =>
    refine exec_replies rfl rfl hp (fun p => ?_) rfl
    have hfirst' : FirstFailure (setPort p s) x i := hfirst
    exact cmdCommit_refused (s := setPort p s) hs (validate_of_firstFailure hfirst')

end Sys2Proof.Machine

/-! PROOF. A successful COMMIT: the station it starts and the initial evaluation from there as one pass (R24, R91, R175). -/

namespace Sys2Proof.Machine

/-! ### A pass says nothing of the port -/

theorem ConfirmedChange.setPort {k : Nat} {d : Condition} {b e : Bool} {s t : State} (h : ConfirmedChange k d b e s t)
    (q : HostPort) : ConfirmedChange k d b e (setPort q s) (setPort q t) where
  cond := h.cond
  events := h.events
  out := h.out
  lines := h.lines
  pts := h.pts
  point2 := h.point2
  point1 := h.point1
  rest :=
    have ⟨hline, hctl, hmir, hqry, _, htime, hpending⟩ := h.rest
    ⟨hline, hctl, hmir, hqry, rfl, htime, hpending⟩

theorem Evaluated.setPort {k : Nat} {d : Condition} {s t : State} (h : Evaluated k d s t) (q : HostPort) :
    Evaluated k d (setPort q s) (setPort q t) := by
  unfold Evaluated at *
  dsimp only at *
  cases htimer : timerAt s.cond.timers k with
  | running b n =>
    rw [htimer] at h
    rw [show timerAt (Machine.setPort q s).cond.timers k = .running b n from htimer]
    by_cases hsame : rawResult s k d = bitOf s.cond.confirmed k
    · exact (congrArg (Machine.setPort q) (h.trans (if_pos hsame))).trans (if_pos hsame).symm
    · exact (congrArg (Machine.setPort q) (h.trans (if_neg hsame))).trans (if_neg hsame).symm
  | idle =>
    rw [htimer] at h
    rw [show timerAt (Machine.setPort q s).cond.timers k = .idle from htimer]
    by_cases hsame : rawResult s k d = bitOf s.cond.confirmed k
    · exact Eq.mpr (if_pos hsame) (congrArg (Machine.setPort q) (Eq.mp (if_pos hsame) h))
    · refine Eq.mpr (if_neg hsame) ?_
      replace h := Eq.mp (if_neg hsame) h
      by_cases hzero : (if rawResult s k d then d.t1 else d.t0).toNat = 0
      · exact Eq.mpr (if_pos hzero) ((Eq.mp (if_pos hzero) h).setPort q)
      · exact Eq.mpr (if_neg hzero) (congrArg (Machine.setPort q) (Eq.mp (if_neg hzero) h))

theorem PassTaken.setPort {member : Condition → Prop} {s t : State} (h : PassTaken member s t) (q : HostPort) :
    PassTaken member (setPort q s) (setPort q t) := by
  obtain ⟨u, hstart, hend, hsteps⟩ := h
  refine ⟨fun k => Machine.setPort q (u k), congrArg _ hstart, congrArg _ hend, fun k hk => ?_⟩
  obtain ⟨hevaluated, hpassed⟩ := hsteps k hk
  exact ⟨fun d hd hj => (hevaluated d hd hj).setPort q, fun h => congrArg _ (hpassed h)⟩

/-! ### The start (R175) -/

theorem CondUnit.eq_of_fields {a b : CondUnit} (h : a.defs = b.defs ∧ a.raw = b.raw ∧ a.sure = b.sure ∧
    a.confirmed = b.confirmed ∧ a.timers = b.timers ∧ a.notices = b.notices) : a = b := by
  obtain ⟨h1, h2, h3, h4, h5, h6⟩ := h
  cases a
  cases b
  simp_all

theorem PointUnit.eq_of_fields {a b : PointUnit} (h : a.points = b.points ∧ a.raw = b.raw ∧ a.filtered = b.filtered ∧
    a.filterTimers = b.filterTimers ∧ a.filterTime = b.filterTime ∧ a.invert = b.invert ∧ a.publish = b.publish ∧
    a.driveMode = b.driveMode) : a = b := by
  obtain ⟨h1, h2, h3, h4, h5, h6, h7, h8⟩ := h
  cases a
  cases b
  simp_all

/-- Every bit of the mask of the initial evaluation is set (R91). -/
theorem commit_member {s : State} (k : Nat) (hk : k < 16) (d : Condition) (_ : condAt s.cond k = some d) :
    bitOf 0xFFFF k = true ↔ True := by
  have hall : ∀ i : Fin 16, bitOf 0xFFFF i.val = true := by decide
  exact iff_of_true (hall ⟨k, hk⟩) trivial

theorem commitStart_cond (s : State) : (commitStart s).cond = { s.cond with
    raw := 0, sure := 0, confirmed := 0, timers := List.replicate 16 .idle, notices := (commitStart s).cond.notices } := by
  obtain ⟨-, -, -, -, -, -, -, -, -, -, hdefs, hraw, hsure, hconfirmed, htimers, -⟩ := commitStart_frame s
  generalize commitStart s = t at hdefs hraw hsure hconfirmed htimers ⊢
  exact CondUnit.eq_of_fields ⟨hdefs, hraw, hsure, hconfirmed, htimers, rfl⟩

theorem commitStart_pts {s : State} (hl : s.pts.points.length = 8) : (commitStart s).pts = { s.pts with
    filterTime := s.ctl.edited.filter, invert := s.ctl.edited.invert, publish := some s.ctl.edited.publish.toNat
    driveMode := .drive
    points := [⟨s.pts.filtered ^^^ s.ctl.edited.invert, .good⟩, pointAt (commitStart s) 1, ⟨0, .good⟩] ++
      List.replicate 5 ⟨0, .held⟩ } := by
  have hpoints := commitStart_points hl
  obtain ⟨-, -, -, -, -, -, -, -, -, -, -, -, -, -, -, hraw, hfiltered, htimers, htime, hinvert, hpublish, hmode⟩ :=
    commitStart_frame s
  generalize commitStart s = t at hpoints hraw hfiltered htimers htime hinvert hpublish hmode ⊢
  exact PointUnit.eq_of_fields ⟨hpoints, hraw, hfiltered, htimers, htime, hinvert, hpublish, hmode⟩

theorem withReply_setPort (st : Status) (data : List Byte) (s t : State) :
    withReply st data (setPort s.port t) = setPort (withReply st data s).port t := rfl

/-- The station that the start by COMMIT gives, whole but for what it posts and announces. -/
theorem commitStart_whole (s : State) (p : HostPort) : setPort p (commitStart s) = { s with
    ctl := { s.ctl with
      state := .listen, faultCause := .none, holds := ⟨false, false⟩, loneCounter := 0, heard := false
      ageTimer := some (40 * s.ctl.edited.slots.toNat * Config.ctUnits s.ctl.edited.rate), driveMode := .drive
      committed := some s.ctl.edited, signature := signatureOf s.ctl.edited }
    line := { s.line with
      phase := .watch, slot := none, slotTimer := none, contention := none, collisionRun := 0, driverRun := 0
      foreignCount := 0
      coldStart := some ((4 * s.ctl.edited.slots.toNat + 6 + 2 * s.ctl.edited.address.toNat) *
        Config.ctUnits s.ctl.edited.rate) }
    mir := s.mir.map (Option.map clearedEntry)
    qry := { s.qry with queries := [], answers := [] }
    cond := (commitStart s).cond
    out := { s.out with
      mode := .drive, active := s.out.edited, level := startLevels s.out.edited, latched := 0
      pulse := List.replicate 16 .idle, hostLevel := 0, copy := 0, pins := startLevels s.out.edited }
    pts := (commitStart s).pts
    evq := (commitStart s).evq, par := (commitStart s).par, port := p } := by
  obtain ⟨hpending, hmir, hqry, -, htime, -, -, hline, hctl, hout, -⟩ := commitStart_frame s
  generalize commitStart s = t at hpending hmir hqry htime hline hctl hout ⊢
  exact State.eq_of_blocks ⟨hpending, hline, hctl, rfl, hmir, rfl, hout, hqry, rfl, rfl, rfl, htime⟩

/-- Settles O16: a consistent configuration is started block by block, then evaluated in one pass of every defined condition. -/
theorem commitStarts : Obligations.CommitStarts := by
  intro s hp hs hc hl
  obtain ⟨p, hexec⟩ := exec_commit_accepted hp hs hc
  rw [← withReply_setPort] at hexec
  have hwhole := commitStart_whole (setPort p s) s.port
  rw [commitStart_cond, commitStart_pts (s := setPort p s) hl] at hwhole
  have hrecorded := commitStart_recorded (setPort p s)
  have hpoint1 := commitStart_point1 (s := setPort p s) hl
  have hpass : PassTaken (fun _ => True) (setPort s.port (commitStart (setPort p s)))
      (setPort s.port (commitNow (setPort p s))) := by
    rw [commitNow_eq]
    exact (pass_taken (member := fun _ => True) commit_member).setPort s.port
  generalize commitNow (setPort p s) = t at hexec hpass
  generalize commitStart (setPort p s) = b at hwhole hrecorded hpoint1 hpass
  exact ⟨setPort s.port b, setPort s.port t, hexec, hwhole, hrecorded, hpoint1, hpass⟩

end Sys2Proof.Machine

/-! PROOF. QUERY: the first free tag, the checks in their order, a query to a peer and a query to the own address (R130 to R133,
R141). -/

namespace Sys2Proof.Machine

/-! ### The first free tag (R131) -/

theorem tagHeld_iff (queries : List Query) (tag : BitVec 4) : tagHeld queries tag = true ↔ ∃ q ∈ queries, q.tag = tag := by
  simp [tagHeld]

theorem freshTag_held {queries : List Query} {tag : BitVec 4} (n : Nat) (h : tagHeld queries tag = true) :
    freshTag queries (n + 1) tag = freshTag queries n (tag + 1) := if_pos h

theorem freshTag_free {queries : List Query} {tag : BitVec 4} (n : Nat) (h : ¬tagHeld queries tag = true) :
    freshTag queries (n + 1) tag = tag := if_neg h

theorem tag_shift (tag : BitVec 4) (m : Nat) : tag + 1 + BitVec.ofNat 4 m = tag + BitVec.ofNat 4 (m + 1) := by
  rw [BitVec.ofNat_add, BitVec.add_assoc, BitVec.add_comm (BitVec.ofNat 4 m)]
  rfl

/-- Within `tries` tries the search ends at a free tag, or after tags that are all held. -/
theorem freshTag_spec (queries : List Query) (tries : Nat) : ∀ tag : BitVec 4, ∃ n ≤ tries,
    freshTag queries tries tag = tag + BitVec.ofNat 4 n ∧ (∀ m < n, tagHeld queries (tag + BitVec.ofNat 4 m) = true) ∧
      (n < tries → ¬tagHeld queries (tag + BitVec.ofNat 4 n) = true) := by
  induction tries with
  | zero => exact fun tag => ⟨0, Nat.le_refl 0, by simp [freshTag], fun m hm => absurd hm (Nat.not_lt_zero m), fun h => by omega⟩
  | succ tries ih =>
    intro tag
    by_cases h : tagHeld queries tag = true
    · obtain ⟨n, hn, htag, hheld, hfree⟩ := ih (tag + 1)
      refine ⟨n + 1, by omega, ?_, fun m hm => ?_, fun hlt => ?_⟩
      · rw [freshTag_held tries h, htag, tag_shift]
      · cases m with
        | zero => simpa using h
        | succ m =>
          rw [← tag_shift]
          exact hheld m (by omega)
      · rw [← tag_shift]
        exact hfree (by omega)
    · refine ⟨0, Nat.zero_le _, ?_, fun m hm => absurd hm (Nat.not_lt_zero m), fun _ => by simpa using h⟩
      rw [freshTag_free tries h]
      simp

/-- Four tags in a row are different, so fewer than four queries cannot hold them all. -/
theorem not_all_held {queries : List Query} (h : queries.length < 4) (tag : BitVec 4) :
    ¬∀ m < 4, tagHeld queries (tag + BitVec.ofNat 4 m) = true := by
  intro hheld
  have hnodup : ((List.range 4).map fun m => tag + BitVec.ofNat 4 m).Nodup := by
    refine List.Nodup.map_on (fun i hi j hj heq => ?_) List.nodup_range
    rw [List.mem_range] at hi hj
    have hnat := congrArg BitVec.toNat (add_left_cancel heq)
    simp only [BitVec.toNat_ofNat] at hnat
    omega
  have hsubset : ((List.range 4).map fun m => tag + BitVec.ofNat 4 m) ⊆ queries.map fun q => q.tag := by
    intro t ht
    obtain ⟨m, hm, rfl⟩ := List.mem_map.1 ht
    obtain ⟨q, hq, htag⟩ := (tagHeld_iff _ _).1 (hheld m (List.mem_range.1 hm))
    exact List.mem_map.2 ⟨q, hq, htag⟩
  have hle := (hnodup.subperm hsubset).length_le
  simp at hle
  omega

/-- With a place free the search finds a free tag within four tries (R131). -/
theorem freshTag_found {queries : List Query} (h : queries.length < 4) (tag : BitVec 4) : ∃ n ≤ 3,
    freshTag queries Config.queryPlaces tag = tag + BitVec.ofNat 4 n ∧ (∀ q ∈ queries, q.tag ≠ tag + BitVec.ofNat 4 n) ∧
      ∀ m < n, ∃ q ∈ queries, q.tag = tag + BitVec.ofNat 4 m := by
  obtain ⟨n, hn, htag, hheld, hfree⟩ := freshTag_spec queries 4 tag
  have hlt : n < 4 := by
    refine Nat.lt_of_le_of_ne hn fun heq => ?_
    subst heq
    exact not_all_held h tag hheld
  refine ⟨n, by omega, htag, fun q hq heq => hfree hlt ((tagHeld_iff _ _).2 ⟨q, hq, heq⟩), fun m hm => ?_⟩
  exact (tagHeld_iff _ _).1 (hheld m hm)

/-! ### The checks (R130) -/

section Checks
variable {target operation index hi lo : Byte} {s : State}

theorem readFlag_flagByte (b : Bool) : readFlag (flagByte b) = some b := by cases b <;> rfl

theorem readFlag_of_gt {b : Byte} (h : 1 < b.toNat) : readFlag b = none := by
  have h0 : b ≠ 0 := by rintro rfl; simp at h
  have h1 : b ≠ 1 := by rintro rfl; simp at h
  rw [readFlag, if_neg h0, if_neg h1]

theorem eq_flagByte_of_le {b : Byte} (h : b.toNat ≤ 1) : ∃ w, b = flagByte w := by
  rcases Nat.le_one_iff_eq_zero_or_eq_one.1 h with h0 | h1
  · exact ⟨false, BitVec.eq_of_toNat_eq h0⟩
  · exact ⟨true, BitVec.eq_of_toNat_eq h1⟩

theorem cmdQuery_notSynced (hr : Running s) (hs : s.ctl.state ≠ .synced) :
    cmdQuery [target, operation, index, hi, lo] s = refuse .notSynced s :=
  (whenRunning_of_running hr _).trans (if_pos hs)

theorem cmdQuery_synced (hs : s.ctl.state = .synced) (w : Bool) :
    cmdQuery [target, flagByte w, index, hi, lo] s =
      if target.toNat < s.slots ∧ index.toNat ≤ 31 ∧ (w = false ∨ index.toNat ≤ 15) then
        if s.qry.queries.length < Config.queryPlaces then acceptQuery target w index (mkWord hi lo) s else refuse .full s
      else refuse .badOperand s := by
  refine (whenRunning_of_running (by simp [Running, hs]) _).trans ((if_neg (not_not.2 hs)).trans ?_)
  simp only [readFlag_flagByte]

theorem cmdQuery_badOperation (hs : s.ctl.state = .synced) (h : 1 < operation.toNat) :
    cmdQuery [target, operation, index, hi, lo] s = refuse .badOperand s := by
  refine (whenRunning_of_running (by simp [Running, hs]) _).trans ((if_neg (not_not.2 hs)).trans ?_)
  simp only [readFlag_of_gt h]

theorem flagByte_eq_one_iff (w : Bool) : flagByte w = 1 ↔ w = true := by cases w <;> simp [flagByte]

theorem cmdQuery_badOperand (hs : s.ctl.state = .synced)
    (h : s.slots ≤ target.toNat ∨ 1 < operation.toNat ∨ 31 < index.toNat ∨ (operation = 1 ∧ 15 < index.toNat)) :
    cmdQuery [target, operation, index, hi, lo] s = refuse .badOperand s := by
  by_cases hop : 1 < operation.toNat
  · exact cmdQuery_badOperation hs hop
  · obtain ⟨w, rfl⟩ := eq_flagByte_of_le (Nat.le_of_not_lt hop)
    rw [cmdQuery_synced hs, if_neg]
    rintro ⟨htarget, hindex, hwrite⟩
    rcases h with h | h | h | ⟨hw, h⟩
    · omega
    · exact hop h
    · omega
    · rw [flagByte_eq_one_iff] at hw
      simp only [hw, Bool.true_eq_false, false_or] at hwrite
      omega

end Checks

/-! ### An accepted QUERY (R131 to R133) -/

/-- The query of an accepted QUERY, as it is issued. -/
def issuedQuery (target : Byte) (write : Bool) (index : Byte) (value : Word) (tag : BitVec 4) : Query :=
  ⟨.queued, target, write, index, if write then value else 0, tag, 0, 0, none, 0⟩

theorem acceptQuery_peer {target index : Byte} {write : Bool} {value : Word} {tag : BitVec 4} {s : State}
    (htag : freshTag s.qry.queries Config.queryPlaces s.qry.tagCounter = tag) (h : target.toNat ≠ s.address) :
    acceptQuery target write index value s =
      (some ⟨.ok, [tag.setWidth 8]⟩, issueQuery (issuedQuery target write index value tag) s) := by
  subst htag
  exact if_neg h

/-- The station after a query to the own address: served, issued as DONE, its record posted (R132, R141). -/
def selfServed (target : Byte) (write : Bool) (index : Byte) (value : Word) (tag : BitVec 4) (s : State) : State :=
  let r := serveOutcome write index value s
  postQuery (issuedQuery target write index value tag) r.1
    (issueQuery (finishQuery r.1 r.2 (issuedQuery target write index value tag)) (serveStore write index value target s))

theorem acceptQuery_self {target index : Byte} {write : Bool} {value : Word} {tag : BitVec 4} {s : State}
    (htag : freshTag s.qry.queries Config.queryPlaces s.qry.tagCounter = tag) (h : target.toNat = s.address) :
    acceptQuery target write index value s =
      (some ⟨.ok, [tag.setWidth 8]⟩, selfServed target write index value tag s) := by
  subst htag
  exact if_pos h

/-- What serving the store posts (R139, R141). -/
theorem serveStore_recorded {write : Bool} {index writer : Byte} {value : Word} {s : State}
    (hi : write = true → index.toNat ≤ 15) :
    Recorded (if write = true ∧ bitOf s.par.permit index.toNat = true then [⟨.param, index, mkWord 0 writer, s.line.round⟩] else [])
      { s with par := { s.par with host := (serveStore write index value writer s).par.host } }
      (serveStore write index value writer s) := by
  by_cases h : write = true ∧ bitOf s.par.permit index.toNat = true
  · obtain ⟨rfl, hp⟩ := h
    rw [if_pos ⟨rfl, hp⟩, serveStore_stored (by have := hi rfl; omega) hp]
    exact (recorded_post .param index (mkWord 0 writer) (storeWord index value s)).of_start rfl (by simp [storeWord])
  · rw [if_neg h, serveStore_unstored fun hs => h ⟨hs.1, hs.2.2⟩]
    exact recorded_nil_of_eq rfl rfl

theorem selfServed_frame (target : Byte) (write : Bool) (index : Byte) (value : Word) (tag : BitVec 4) (s : State) :
    (selfServed target write index value tag s).line = s.line ∧ (selfServed target write index value tag s).ctl = s.ctl ∧
    (selfServed target write index value tag s).mir = s.mir ∧ (selfServed target write index value tag s).out = s.out ∧
    (selfServed target write index value tag s).pts = s.pts ∧ (selfServed target write index value tag s).cond = s.cond ∧
    (selfServed target write index value tag s).time = s.time ∧ (selfServed target write index value tag s).port = s.port ∧
    (selfServed target write index value tag s).par.host = (serveStore write index value target s).par.host ∧
    (selfServed target write index value tag s).qry =
      { s.qry with
        tagCounter := tag + 1
        queries := s.qry.queries ++ [finishQuery (serveOutcome write index value s).1 (serveOutcome write index value s).2
          (issuedQuery target write index value tag)] } := by
  simp [selfServed, issueQuery, finishQuery, issuedQuery]

theorem selfServed_recorded {target : Byte} {write : Bool} {index : Byte} {value : Word} (tag : BitVec 4) {s : State}
    (hi : write = true → index.toNat ≤ 15) :
    Recorded ((if write = true ∧ bitOf s.par.permit index.toNat = true then [⟨.param, index, mkWord 0 target, s.line.round⟩] else []) ++
      [⟨.query, tag.setWidth 8, mkWord (outcomeCode (serveOutcome write index value s).1) target, s.line.round⟩])
      { s with par := { s.par with host := (serveStore write index value target s).par.host } }
      (selfServed target write index value tag s) := by
  have hserved := serveStore_recorded (writer := target) (value := value) (s := s) hi
  have hissued := hserved.to_end (t := issueQuery (finishQuery (serveOutcome write index value s).1
    (serveOutcome write index value s).2 (issuedQuery target write index value tag)) (serveStore write index value target s)) rfl rfl
  refine hissued.post .query (tag.setWidth 8) (mkWord (outcomeCode (serveOutcome write index value s).1) target) ?_
  simp [issueQuery]

section SelfQuery
variable (target : Byte) (write : Bool) (index : Byte) (value : Word) (tag : BitVec 4)

/-- What the self query leaves in the host parameters and in its place, by its kind and the permit mask (R132, R139). -/
theorem selfServed_outcomes {s : State} (hindex : write = true → index.toNat ≤ 15) :
    (write = false → (serveOutcome write index value s).1 = .ok ∧
      (serveOutcome write index value s).2 = paramWord s index.toNat ∧
      (serveStore write index value target s).par.host = s.par.host) ∧
    (write = true → bitOf s.par.permit index.toNat = true → (serveOutcome write index value s).1 = .ok ∧
      (serveOutcome write index value s).2 = value ∧
      (serveStore write index value target s).par.host = s.par.host.set index.toNat value) ∧
    (write = true → bitOf s.par.permit index.toNat = false → (serveOutcome write index value s).1 = .denied ∧
      (serveOutcome write index value s).2 = 0 ∧ (serveStore write index value target s).par.host = s.par.host) := by
  refine ⟨?_, ?_, ?_⟩
  · rintro rfl
    exact ⟨rfl, rfl, by rw [serveStore_unstored (by simp)]⟩
  · rintro rfl hpermit
    have hi : index.toNat < 16 := Nat.lt_succ_of_le (hindex rfl)
    rw [serveOutcome_permitted hi hpermit, serveStore_stored hi hpermit]
    exact ⟨rfl, rfl, by simp [storeWord]⟩
  · rintro rfl hpermit
    have hi : index.toNat < 16 := Nat.lt_succ_of_le (hindex rfl)
    rw [serveOutcome_denied hi hpermit, serveStore_unstored (by simp [permitted, hpermit])]
    exact ⟨rfl, rfl, rfl⟩

end SelfQuery

/-- The checks of an accepted QUERY pass (R130). -/
theorem cmdQuery_accepted {target index hi lo : Byte} {write : Bool} {s : State} (hs : s.ctl.state = .synced)
    (htarget : target.toNat < s.slots) (hindex : index.toNat ≤ 31) (hwrite : write = true → index.toNat ≤ 15)
    (hroom : s.qry.queries.length < 4) :
    cmdQuery [target, flagByte write, index, hi, lo] s = acceptQuery target write index (mkWord hi lo) s := by
  have hoperands : target.toNat < s.slots ∧ index.toNat ≤ 31 ∧ (write = false ∨ index.toNat ≤ 15) := by
    cases write with
    | false => exact ⟨htarget, hindex, .inl rfl⟩
    | true => exact ⟨htarget, hindex, .inr (hwrite rfl)⟩
  exact (cmdQuery_synced hs write).trans ((if_pos hoperands).trans (if_pos hroom))

/-- Settles O29: the checks in their order; an accepted query has the first free tag and is queued, or served at once. -/
theorem queryCommand : Obligations.QueryCommand := by
  refine ⟨fun target index hi lo write s hp hs hsound htarget hindex hwrite hroom => ?accepted,
    fun target operation index hi lo s hp hr => ⟨fun hs => ?notSynced, fun hs hbad => ?badOperand,
      fun hs htarget hop hindex hwrite hfull => ?full⟩⟩
  case accepted =>
    obtain ⟨n, hn, htag, hfree, hheld⟩ := freshTag_found hroom s.qry.tagCounter
    have hbody (p : HostPort) := cmdQuery_accepted (hi := hi) (lo := lo) (s := setPort p s) hs htarget hindex hwrite hroom
    by_cases hself : target.toNat = s.address
    · obtain ⟨p, hexec⟩ := exec_replied (c := .query [target, flagByte write, index, hi, lo])
        (u := fun p => selfServed target write index (mkWord hi lo) (s.qry.tagCounter + BitVec.ofNat 4 n) (setPort p s))
        rfl rfl hp (fun p => (hbody p).trans (acceptQuery_self (s := setPort p s) htag hself))
        (fun p => by simp [selfServed, issueQuery])
      obtain ⟨hline, hctl, hmir, hout, hpts, hcond, htime, -, hhost, hqry⟩ :=
        selfServed_frame target write index (mkWord hi lo) (s.qry.tagCounter + BitVec.ofNat 4 n) (setPort p s)
      have hrecorded := selfServed_recorded (target := target) (value := mkWord hi lo) (s.qry.tagCounter + BitVec.ofNat 4 n)
        (s := setPort p s) hwrite
      obtain ⟨hread, hpermitted, hdenied⟩ := selfServed_outcomes target write index (mkWord hi lo) (s := setPort p s) hwrite
      generalize selfServed target write index (mkWord hi lo) (s.qry.tagCounter + BitVec.ofNat 4 n) (setPort p s) = u
        at hexec hline hctl hmir hout hpts hcond htime hhost hqry hrecorded
      rw [← hhost] at hread hpermitted hdenied hrecorded
      refine ⟨_, n, hn, hexec, hfree, hheld, rfl, by simp [hqry], by simp [hqry], fun h => absurd hself h, fun _ =>
        ⟨_, (serveOutcome write index (mkWord hi lo) (setPort p s)).1, congrArg QueryUnit.queries hqry, rfl, rfl, rfl, rfl, rfl, rfl,
          ?_, ?_, ?_, ?_, hline, hctl, hmir, hout, hpts, hcond, htime⟩⟩
      · exact fun h => ⟨congrArg some (hread h).1, (hread h).2.1, (hread h).2.2⟩
      · exact fun h h' => ⟨congrArg some (hpermitted h h').1, (hpermitted h h').2.1, (hpermitted h h').2.2⟩
      · exact fun h h' => ⟨congrArg some (hdenied h h').1, (hdenied h h').2.1, (hdenied h h').2.2⟩
      · exact (hrecorded.to_end rfl rfl).of_start rfl rfl
    · obtain ⟨p, hexec⟩ := exec_replied (c := .query [target, flagByte write, index, hi, lo])
        (u := fun p => issueQuery (issuedQuery target write index (mkWord hi lo) (s.qry.tagCounter + BitVec.ofNat 4 n))
          (setPort p s)) rfl rfl hp (fun p => (hbody p).trans (acceptQuery_peer (s := setPort p s) htag hself)) (fun p => rfl)
      exact ⟨_, n, hn, hexec, hfree, hheld, rfl, rfl, rfl, fun _ => rfl, fun h => absurd h hself⟩
  case notSynced => exact exec_refuses rfl rfl hp fun p => cmdQuery_notSynced (s := setPort p s) hr hs
  case badOperand => exact exec_refuses rfl rfl hp fun p => cmdQuery_badOperand (s := setPort p s) hs hbad
  case full =>
    obtain ⟨w, rfl⟩ := eq_flagByte_of_le hop
    refine exec_refuses rfl rfl hp fun p => (cmdQuery_synced (s := setPort p s) hs w).trans ?_
    refine (if_pos ⟨htarget, hindex, ?_⟩).trans (if_neg (Nat.not_lt.2 hfull))
    cases w with
    | false => exact .inl rfl
    | true => exact .inr (hwrite rfl)

end Sys2Proof.Machine

/-! PROOF. The query unit and the station state along every step (R129, R140, R142 and Fig. 5). -/

namespace Sys2Proof.Machine

/-! ### The query unit (R129, R140, R142) -/

theorem querySound_iff (s : State) : QuerySound s ↔ QryOk s.qry ∧ (s.ctl.state ≠ .synced → QryRest s.qry) := by
  simp only [QuerySound, QryOk, QryRest]
  constructor
  · rintro ⟨hlength, htags, hqueries, hanswers, hnone⟩
    exact ⟨⟨hlength, htags, fun q hq => (hqueries q hq).1, hanswers⟩, fun hs => ⟨fun q hq => (hqueries q hq).2 hs, hnone hs⟩⟩
  · rintro ⟨⟨hlength, htags, hqueries, hanswers⟩, hrest⟩
    exact ⟨hlength, htags, fun q hq => ⟨hqueries q hq, fun hs => (hrest hs).1 q hq⟩, hanswers, fun hs => (hrest hs).2⟩

/-- Soundness of the query unit depends on the unit and on whether the station is SYNCED. -/
theorem QuerySound.congr {s t : State} (h : QuerySound s) (hq : t.qry = s.qry) (hc : t.ctl.state = s.ctl.state) :
    QuerySound t := by
  rw [querySound_iff] at h ⊢
  rwa [hq, hc]

/-- An empty query unit is sound in every station state. -/
theorem querySound_of_empty {s : State} (hq : s.qry.queries = []) (ha : s.qry.answers = []) : QuerySound s := by
  simp [QuerySound, hq, ha]

/-- While SYNCED only the places and tags matter. -/
theorem querySound_of_synced {s : State} (hs : s.ctl.state = .synced) (h : QryOk s.qry) : QuerySound s :=
  (querySound_iff s).2 ⟨h, fun hn => absurd hs hn⟩

/-- A query appended to a list with a place free, with a tag no place holds, and an outcome exactly when DONE (R131). -/
theorem qryOk_append {u : QueryUnit} {q : Query} (h : QryOk u) (hroom : u.queries.length < 4)
    (htag : ∀ x ∈ u.queries, x.tag ≠ q.tag) (hdone : q.state = .done ↔ q.outcome ≠ none) (c : BitVec 4) :
    QryOk { u with queries := u.queries ++ [q], tagCounter := c } := by
  obtain ⟨-, htags, hqueries, hanswers⟩ := h
  refine ⟨by simpa using hroom, ?_, fun x hx => ?_, hanswers⟩
  · rw [List.map_append, List.map_singleton, List.nodup_append]
    refine ⟨htags, List.nodup_singleton _, fun a ha b hb => ?_⟩
    obtain ⟨x, hx, rfl⟩ := List.mem_map.1 ha
    rw [List.mem_singleton.1 hb]
    exact htag x hx
  · rcases List.mem_append.1 hx with hx | hx
    · exact hqueries x hx
    · rw [List.mem_singleton.1 hx]
      exact hdone

/-- A query issued with the first free tag keeps a sound unit (R131). -/
theorem issueQuery_querySound {s : State} {q : Query} (h : QuerySound s) (hs : s.ctl.state = .synced)
    (hroom : s.qry.queries.length < 4) (htag : q.tag = freshTag s.qry.queries Config.queryPlaces s.qry.tagCounter)
    (hdone : q.state = .done ↔ q.outcome ≠ none) : QuerySound (issueQuery q s) := by
  obtain ⟨n, -, hfresh, hfree, -⟩ := freshTag_found hroom s.qry.tagCounter
  refine querySound_of_synced hs (qryOk_append ((querySound_iff s).1 h).1 hroom (fun x hx => ?_) hdone _)
  rw [htag, hfresh]
  exact hfree x hx

/-- A place freed keeps a sound unit (R138). -/
theorem eraseQuery_querySound {s : State} (h : QuerySound s) (p : Query → Bool) :
    QuerySound (setQueries (s.qry.queries.eraseP p) s) := by
  obtain ⟨hlength, htags, hqueries, hanswers, hnone⟩ := h
  exact ⟨Nat.le_trans (List.length_eraseP_le) hlength, (List.eraseP_sublist.map _).nodup htags,
    fun q hq => hqueries q (List.mem_of_mem_eraseP hq), hanswers, hnone⟩

/-- RESTART and RECONFIGURE end every query when they leave SYNCED (R142, R143). -/
theorem makeHeld_querySound (c : HeldCommand) {s : State} (h : QuerySound s) : QuerySound (makeHeld c s) := by
  cases c with
  | restart =>
    have hqry : (makeHeld .restart s).qry = (leaveIfSynced s).qry := by simp [makeHeld]
    rw [querySound_iff] at h ⊢
    rw [hqry]
    refine ⟨(Calm.leaveIfSynced s).qry h.1, fun _ => ?_⟩
    by_cases hs : s.ctl.state = .synced
    · simpa using qryAfterLeaving_rest hs
    · exact (Calm.leaveIfSynced s).rest (h.2 hs)
  | reconfigure => exact querySound_of_empty (by simp [makeHeld]) (by simp [makeHeld])

theorem commitNow_querySound (s : State) : QuerySound (commitNow s) :=
  querySound_of_empty (by simp [commitNow_eq]) (by simp [commitNow_eq])

theorem bodyEffect_querySound {s t : State} (h : BodyEffect s t) (hs : QuerySound s) : QuerySound t := by
  cases h
  case commit => exact commitNow_querySound s
  case made c _ _ => exact makeHeld_querySound c hs
  case holds => exact hs.congr (by simp) (by simp)
  case point => exact hs.congr (by simp) (by simp)
  case outputs => exact hs.congr (by simp [writeHostLevels]) (by simp [writeHostLevels])
  case unlatch => exact hs.congr (by simp [clearLatched]) (by simp [clearLatched])
  case queued target index write v hsynced hroom => exact issueQuery_querySound hs hsynced hroom rfl (by simp)
  case served q o w i v r a hsynced hroom htag =>
    have hstored : QuerySound (serveStore w i v a s) := hs.congr (by simp) (by simp)
    exact (issueQuery_querySound (q := finishQuery o r q) hstored (by simpa using hsynced) (by simpa using hroom)
      (by simpa [finishQuery] using htag) (by simp [finishQuery])).congr (by simp) (by simp)
  case answered tag _ => exact eraseQuery_querySound hs _
  all_goals exact hs

/-- A line event keeps the unit's places, ends every query where it leaves SYNCED, and outside SYNCED leaves a unit at rest so. -/
theorem lineEvent_querySound (c : Instr) (s t : State) (hc : lineEvent c = true) (h : exec c s = .next t)
    (hs : QuerySound s) : QuerySound t := by
  rw [querySound_iff] at hs ⊢
  have hleaves := lineEvent_leaves c s t hc h
  refine ⟨hleaves.served.qry hs.1, fun hn => ?_⟩
  have calm (hsn : s.ctl.state ≠ .synced) : QryRest t.qry := by
    rcases hleaves with hcalm | ⟨-, hsynced, -⟩
    · exact hcalm.rest (hs.2 hsn)
    · exact absurd hsynced hsn
  rcases lineEvent_moves c s t hc h with hm | ⟨hl, -⟩ | ⟨-, -, hrest⟩
  · exact calm fun k => hn (hm.trans k)
  · exact calm (by simp [hl])
  · exact hrest

theorem keeps_querySound : Keeps QuerySound where
  pending _ _ h := h
  port _ _ h := h
  reset _ := querySound_of_empty rfl rfl
  body i s h := bodyEffect_querySound (body_effect i s) h
  release c s h _ _ := makeHeld_querySound c (h.congr rfl rfl)
  line := lineEvent_querySound
  input i b s t he h := by
    simp only [exec, execInputChange, Host.Outcome.next.injEq] at he
    subst he
    split
    · exact h
    · exact h.congr (by simp) (by simp)
  filter m s t he h := by
    simp only [exec, execFilterExpiry, Host.Outcome.next.injEq] at he
    subst he
    exact h.congr (by simp) (by simp)
  pass s h := h.congr (by simp) (by simp)
  confirm k s _ h := h.congr (by simp) (by simp)
  pulse i s _ h := h.congr (by simp) (by simp)
  tick s h := h.congr (by simp) (by simp)

/-- Settles O55: the first free tag is fresh, places and answers stay four at most, and leaving SYNCED ends the rest. -/
theorem queriesStaySound : Obligations.QueriesStaySound :=
  fun s t hs h => keeps_querySound.step s t h hs

end Sys2Proof.Machine

/-! PROOF. The host's accesses along every step, the ways of the station state (Fig. 5), and what stands outside CONFIG (R157). -/

namespace Sys2Proof.Machine

/-! ### What a data write can do (R146, R150) -/

/-- The ways of a data write by the phase it finds. -/
inductive DataWritten (b : Byte) (s : State) : State → Prop where
  | discarded : s.port.perr = true → DataWritten b s s
  | busy : s.port.phase = .executing ∨ s.port.phase = .replying → DataWritten b s (setPerr s)
  | code : s.port.perr = false → s.port.phase = .ready →
      DataWritten b s (setPort { s.port with phase := .filling, buf := [b], len := none } s)
  | tooLong : s.port.perr = false → s.port.phase = .filling →
      DataWritten b s (setPort { s.port with phase := .ready, buf := [], len := none, perr := true } s)
  | length (n : Nat) : s.port.perr = false → s.port.phase = .filling → s.port.len = none → 1 ≤ n → n ≤ 30 →
      DataWritten b s (setPort { s.port with buf := s.port.buf ++ [b], len := some n } s)
  | operand (n : Nat) : s.port.perr = false → s.port.phase = .filling → s.port.len = some n → s.port.buf.length + 1 ≠ 2 + n →
      DataWritten b s (setPort { s.port with buf := s.port.buf ++ [b] } s)
  | ran (m : List Byte) (i : Instr) : s.port.perr = false → s.port.phase = .filling → m.length = s.port.buf.length + 1 →
      DataWritten b s (execute m (bodyOf i) s)

theorem writeLength_written (b : Byte) {s : State} (hperr : s.port.perr = false) (hphase : s.port.phase = .filling)
    (hlen : s.port.len = none) : DataWritten b s (writeLength b s) := by
  by_cases hlong : 30 < b.toNat
  · rw [writeLength_long hlong]
    exact .tooLong hperr hphase
  · by_cases hzero : b = 0
    · have hran : writeLength b s = execute (s.port.buf ++ [b]) (bodyOf (decodeMessage ((s.port.buf ++ [b]).headD 0) [])) s :=
        (if_neg hlong).trans (if_pos hzero)
      rw [hran]
      exact .ran _ _ hperr hphase (by simp)
    · have hpos : 1 ≤ b.toNat := Nat.one_le_iff_ne_zero.2 fun h => hzero (BitVec.eq_of_toNat_eq h)
      rw [writeLength_some hpos (Nat.le_of_not_lt hlong)]
      exact .length _ hperr hphase hlen hpos (Nat.le_of_not_lt hlong)

theorem writeOperand_written (b : Byte) {n : Nat} {s : State} (hperr : s.port.perr = false) (hphase : s.port.phase = .filling)
    (hlen : s.port.len = some n) : DataWritten b s (writeOperand n b s) := by
  by_cases hlast : s.port.buf.length + 1 = 2 + n
  · have hbuf : (s.port.buf ++ [b]).length = 2 + n := by simpa using hlast
    rw [writeOperand, if_pos hbuf]
    exact .ran _ _ hperr hphase (by simp)
  · rw [writeOperand_open hlast]
    exact .operand n hperr hphase hlen hlast

theorem dataWrite_written (b : Byte) (s : State) : DataWritten b s (dataWrite b s) := by
  unfold dataWrite
  split
  · exact .discarded ‹_›
  · rename_i hperr
    rw [Bool.not_eq_true] at hperr
    split
    · exact .code hperr ‹_›
    · split
      · exact writeLength_written b hperr ‹_› ‹_›
      · exact writeOperand_written b hperr ‹_› ‹_›
    · exact .busy (.inl ‹_›)
    · exact .busy (.inr ‹_›)

/-! ### The accesses and the own events -/

/-- An act of the host is a message, another access, the making of a held command or the hardware reset. -/
theorem hostAct_cases {c : Instr} (h : hostAct c = true) : (messageOf c).isSome = true ∨ (∃ b, c = .hostDataWrite b) ∨
    c = .dataRead ∨ (∃ b, c = .portReset b) ∨ c = .heldCommandRelease ∨ ∃ w, c = .hardwareReset w := by
  cases c
  case hostDataWrite b => exact .inr (.inl ⟨b, rfl⟩)
  case dataRead => exact .inr (.inr (.inl rfl))
  case portReset b => exact .inr (.inr (.inr (.inl ⟨b, rfl⟩)))
  case heldCommandRelease => exact .inr (.inr (.inr (.inr (.inl rfl))))
  case hardwareReset w => exact .inr (.inr (.inr (.inr (.inr ⟨w, rfl⟩))))
  all_goals exact .inl h

/-- Every other command is an event of the line, of the inputs or of a timer. -/
theorem event_cases (c : Instr) : (lineEvent c || hostAct c) = true ∨ (∃ i b, c = .inputChange i b) ∨
    (∃ m, c = .filterExpiry m) ∨ c = .conditionPass ∨ (∃ k, c = .confirmExpiry k) ∨ ∃ i, c = .pulseExpiry i := by
  cases c
  case inputChange i b => exact .inr (.inl ⟨i, b, rfl⟩)
  case filterExpiry m => exact .inr (.inr (.inl ⟨m, rfl⟩))
  case conditionPass => exact .inr (.inr (.inr (.inl rfl)))
  case confirmExpiry k => exact .inr (.inr (.inr (.inr (.inl ⟨k, rfl⟩))))
  case pulseExpiry i => exact .inr (.inr (.inr (.inr (.inr ⟨i, rfl⟩))))
  all_goals exact .inl rfl

section HostKeeps
variable {P : State → Prop}

/-- A property that every data write keeps, and every run of a message at a ready port, is kept by a command's row (log 12). -/
theorem message_keeps (hwrite : ∀ b s, P s → P (dataWrite b s))
    (hrun : ∀ m i s, m.length ≤ 32 → s.port.perr = false → s.port.phase = .ready → P s → P (execute m (bodyOf i) s))
    {c : Instr} {code : Byte} {ops : List Byte} {s t : State} (hm : messageOf c = some (code, ops)) (he : exec c s = .next t)
    (h : P s) : P t := by
  have hwrites : ∀ l u, P u → P (dataWrites l u) := by
    intro l
    induction l with
    | nil => exact fun u hu => hu
    | cons b rest ih => exact fun u hu => ih _ (hwrite b u hu)
  obtain ⟨body, hexec, hown⟩ := exec_message c code ops s hm
  rw [hexec] at he
  injection he with he
  subst he
  dsimp only [command]
  split
  · rename_i hready
    simp only [portReady, operandsFit, Bool.and_eq_true, decide_eq_true_eq, Bool.not_eq_true'] at hready
    obtain ⟨⟨hphase, hperr⟩, hfits⟩ := hready
    have hlength : (code :: BitVec.ofNat 8 ops.length :: ops).length ≤ 32 := Nat.add_le_add_right hfits 2
    rcases hown with hown | hown <;> rw [hown] <;> exact hrun _ _ s hlength hperr hphase h
  · exact hwrites _ s h

/-- The same for every act of the host and the hardware reset, where the other accesses keep the property too. -/
theorem hostAct_keeps (hwrite : ∀ b s, P s → P (dataWrite b s))
    (hrun : ∀ m i s, m.length ≤ 32 → s.port.perr = false → s.port.phase = .ready → P s → P (execute m (bodyOf i) s))
    (hread : ∀ s, P s → P (dataRead s)) (hreset : ∀ s, P s → P (portReset s))
    (hrelease : ∀ c s, P s → s.ctl.held = some c → txSending s = false →
      P (endExecution ⟨.ok, []⟩ (makeHeld c (setCtl { s.ctl with held := none } s))))
    (hhardware : ∀ inputs (s : State), P (setPending s.pending (State.resetWith inputs)))
    {c : Instr} {s t : State} (hc : hostAct c = true) (he : exec c s = .next t) (h : P s) : P t := by
  rcases hostAct_cases hc with hm | ⟨b, rfl⟩ | rfl | ⟨b, rfl⟩ | rfl | ⟨w, rfl⟩
  · obtain ⟨message, hm⟩ := Option.isSome_iff_exists.1 hm
    exact message_keeps hwrite hrun hm he h
  · exact Host.Outcome.next.inj he ▸ hwrite b s h
  · exact Host.Outcome.next.inj he ▸ hread s h
  · exact Host.Outcome.next.inj he ▸ hreset s h
  · simp only [exec, execHeldCommandRelease] at he
    split at he
    · rename_i hheld
      injection he with he
      subst he
      split
      · exact h
      · exact hrelease _ s h hheld (by simpa using ‹¬txSending s = true›)
    · injection he with he
      exact he ▸ h
  · exact Host.Outcome.next.inj he ▸ hhardware w s

/-- A property that every event of the station's own keeps. -/
theorem ownEvent_keeps (hline : ∀ c s t, lineEvent c = true → exec c s = .next t → P s → P t)
    (hinput : ∀ i b s t, exec (.inputChange i b) s = .next t → P s → P t)
    (hfilter : ∀ m s t, exec (.filterExpiry m) s = .next t → P s → P t)
    (hpass : ∀ s, P s → P (takeNotice s)) (hconfirm : ∀ k s, k < 16 → P s → P (expireConfirm k s))
    (hpulse : ∀ i s, i < 16 → P s → P (expirePulse i s))
    {c : Instr} {s t : State} (hc : hostAct c = false) (he : exec c s = .next t) (h : P s) : P t := by
  rcases event_cases c with hl | ⟨i, b, rfl⟩ | ⟨m, rfl⟩ | rfl | ⟨k, rfl⟩ | ⟨i, rfl⟩
  · exact hline c s t (by simpa [hc] using hl) he h
  · exact hinput i b s t he h
  · exact hfilter m s t he h
  · exact Host.Outcome.next.inj he ▸ hpass s h
  · exact Host.Outcome.next.inj he ▸ hconfirm k.val s k.isLt h
  · exact Host.Outcome.next.inj he ▸ hpulse i.val s i.isLt h

end HostKeeps

/-! ### The run of a command (R148) -/

theorem bodyEffect_port {s t : State} (h : BodyEffect s t) : t.port = s.port := by
  cases h
  case commit => simp [commitNow_eq]
  case made c _ _ => exact makeHeld_port c s
  all_goals simp [setPlace, setDef, setRule, storeWord, setCounters, writeHostLevels, clearLatched, issueQuery, setQueries]

theorem bodyOf_port (i : Instr) (s : State) : (bodyOf i s).2.port = s.port := bodyEffect_port (body_effect i s)

/-- Where a byte of a message is awaited no discard mark is set. -/
theorem not_discard_of_open {x : HostPort} (h : x.discard = true → x.phase = .executing)
    (hphase : x.phase = .ready ∨ x.phase = .filling) : x.discard = false := by
  rw [← Bool.not_eq_true]
  intro hd
  rcases hphase with hp | hp <;> simp [h hd] at hp

/-- The body's reply is placed; without one the command is held and the port stays in EXECUTING. -/
theorem execute_cases (m : List Byte) (i : Instr) (t : State) (hno : t.port.discard = false) :
    (∃ r, (bodyOf i (beginExecution m t)).1 = some r ∧ execute m (bodyOf i) t =
      setPort { t.port with phase := .replying, buf := [], len := none, reply := replyBytes r, pos := 0 }
        (bodyOf i (beginExecution m t)).2) ∨
    ((bodyOf i (beginExecution m t)).1 = none ∧ execute m (bodyOf i) t = (bodyOf i (beginExecution m t)).2) := by
  have hport := bodyOf_port i (beginExecution m t)
  unfold execute
  generalize bodyOf i (beginExecution m t) = result at hport
  obtain ⟨reply, u⟩ := result
  cases reply with
  | none => exact .inr ⟨rfl, rfl⟩
  | some r =>
    refine .inl ⟨r, rfl, ?_⟩
    have hend : endPort r u.port =
        { t.port with phase := .replying, buf := [], len := none, reply := replyBytes r, pos := 0 } := by
      rw [show u.port = (beginExecution m t).port from hport]
      simp [endPort, beginExecution, hno]
    simp [endExecution, hend]

/-! ### The ways of the station state (Fig. 5) -/

/-- What a body leaves of the station state: itself, or CONFIG, or LISTEN. -/
theorem bodyEffect_state {s t : State} (h : BodyEffect s t) :
    t.ctl.state = s.ctl.state ∨ t.ctl.state = .config ∨ t.ctl.state = .listen := by
  cases h
  case commit => exact .inr (.inr (by simp [commitNow_eq]))
  case made c _ _ => cases c <;> simp [makeHeld]
  all_goals exact .inl (by simp [setPlace, setDef, setRule, storeWord, setCounters, writeHostLevels, clearLatched, issueQuery, setQueries])

/-- CONFIG, LISTEN or the state before. -/
def HostMoved (s t : State) : Prop := t.ctl.state = s.ctl.state ∨ t.ctl.state = .config ∨ t.ctl.state = .listen

theorem HostMoved.trans {s u t : State} (h : HostMoved s u) (k : HostMoved u t) : HostMoved s t := by
  unfold HostMoved at *
  rcases k with k | k
  · rwa [k]
  · exact .inr k

theorem hostAct_moves {c : Instr} {s t : State} (hc : hostAct c = true) (he : exec c s = .next t) : HostMoved s t := by
  have hport : ∀ x u, HostMoved s u → HostMoved s (setPort x u) := fun _ _ hu => hu
  have hbody : ∀ i u, HostMoved s u → HostMoved s (bodyOf i u).2 :=
    fun i u hu => hu.trans (bodyEffect_state (body_effect i u))
  refine hostAct_keeps (P := HostMoved s) (fun b u hu => dataWrite_keeps hport hbody b u hu)
    (fun m i u _ _ _ hu => execute_keeps hport m (bodyOf i) (hbody i) u hu) (fun u hu => ?read) (fun u hu => ?reset)
    (fun c u hu _ _ => ?release) (fun w u => .inr (.inl rfl)) hc he (.inl rfl)
  case read =>
    unfold dataRead
    split
    · dsimp only
      split <;> exact hu
    all_goals exact hu
  case reset =>
    unfold portReset
    split <;> exact hu
  case release => exact hport _ _ (hu.trans (by cases c <;> simp [makeHeld, HostMoved]))

/-- Settles O59: bodies and held commands lead to CONFIG or LISTEN, line events move as `lineEvent_moves` says, the rest stay. -/
theorem stationStateMoves : Obligations.StationStateMoves := by
  intro c s t he hne
  refine ⟨fun hc => (hostAct_moves hc he).resolve_left hne, fun hc => ?_⟩
  rcases event_cases c with hl | ⟨i, b, rfl⟩ | ⟨m, rfl⟩ | rfl | ⟨k, rfl⟩ | ⟨i, rfl⟩
  · rcases lineEvent_moves c s t (by simpa [hc] using hl) he with hm | hm | ⟨hs, hm, -⟩
    · exact absurd hm hne
    · exact .inl hm
    · exact .inr ⟨hs, hm⟩
  all_goals
    refine absurd ?_ hne
    rw [← Host.Outcome.next.inj he]
  · split <;> simp
  all_goals simp

/-! ### What stands outside CONFIG (R157) -/

/-- The settings, the signature, the definitions and the permit mask stand. -/
def SameDefs (s t : State) : Prop :=
  t.ctl.edited = s.ctl.edited ∧ t.ctl.editedSet = s.ctl.editedSet ∧ t.ctl.committed = s.ctl.committed ∧
    t.ctl.signature = s.ctl.signature ∧ t.cond.defs = s.cond.defs ∧ t.out.edited = s.out.edited ∧
    t.out.active = s.out.active ∧ t.par.permit = s.par.permit ∧
    t.mir.map (Option.map fun e => (e.source, e.point, e.ageLimit, e.report)) =
      s.mir.map (Option.map fun e => (e.source, e.point, e.ageLimit, e.report)) ∧
    t.pts.filterTime = s.pts.filterTime ∧ t.pts.invert = s.pts.invert ∧ t.pts.publish = s.pts.publish

theorem SameDefs.refl (s : State) : SameDefs s s := ⟨rfl, rfl, rfl, rfl, rfl, rfl, rfl, rfl, rfl, rfl, rfl, rfl⟩

theorem SameDefs.trans {s u t : State} (h : SameDefs s u) (k : SameDefs u t) : SameDefs s t := by
  obtain ⟨h1, h2, h3, h4, h5, h6, h7, h8, h9, h10, h11, h12⟩ := h
  obtain ⟨k1, k2, k3, k4, k5, k6, k7, k8, k9, k10, k11, k12⟩ := k
  exact ⟨k1.trans h1, k2.trans h2, k3.trans h3, k4.trans h4, k5.trans h5, k6.trans h6, k7.trans h7, k8.trans h8, k9.trans h9,
    k10.trans h10, k11.trans h11, k12.trans h12⟩

theorem Served.sameDefs {s t : State} (h : Served s t) : SameDefs s t :=
  ⟨h.edited, h.editedSet, h.committed, h.signature, h.condDefs, h.outEdited, h.outActive, h.permit, h.mir.defs, h.filterTime,
    h.invert, h.publish⟩

theorem map_defs_congr {g : Entry → Entry} {m : List (Option Entry)}
    (hg : ∀ e, ((g e).source, (g e).point, (g e).ageLimit, (g e).report) = (e.source, e.point, e.ageLimit, e.report)) :
    (m.map (Option.map g)).map (Option.map fun e => (e.source, e.point, e.ageLimit, e.report)) =
      m.map (Option.map fun e => (e.source, e.point, e.ageLimit, e.report)) := by
  rw [List.map_map]
  refine List.map_congr_left fun o _ => ?_
  cases o with
  | none => rfl
  | some e => exact congrArg some (hg e)

theorem map_set_defs {m : List (Option Entry)} {i : Nat} {e x : Entry} (h : entryAt m i = some e)
    (hx : (x.source, x.point, x.ageLimit, x.report) = (e.source, e.point, e.ageLimit, e.report)) :
    (m.set i (some x)).map (Option.map fun e => (e.source, e.point, e.ageLimit, e.report)) =
      m.map (Option.map fun e => (e.source, e.point, e.ageLimit, e.report)) := by
  refine List.ext_getElem? fun j => ?_
  simp only [List.getElem?_map, List.getElem?_set]
  split
  · rename_i hij
    subst hij
    have hm : m[i]? = some (some e) := by
      unfold entryAt at h
      cases ho : m[i]? with
      | none => simp [ho] at h
      | some o => simpa [ho] using h
    have hlt : i < m.length := (List.getElem?_eq_some_iff.1 hm).1
    rw [if_pos hlt, hm]
    exact congrArg (some ∘ some) hx
  · rfl

theorem makeHeld_sameDefs (c : HeldCommand) {s : State} (hs : s.ctl.state ≠ .config) : SameDefs s (makeHeld c s) := by
  cases c with
  | restart => exact (Calm.restartNow s hs).toServed.sameDefs
  | reconfigure =>
    have hmir := map_defs_congr (g := restartedEntry) (m := s.mir) fun e => rfl
    simp only [SameDefs, makeHeld, reconfigureNow_frame, hmir]
    simp [startRules, clearResults]

/-- Outside CONFIG no body changes a definition (R157). -/
theorem bodyEffect_sameDefs {s t : State} (h : BodyEffect s t) (hs : s.ctl.state ≠ .config) : SameDefs s t := by
  cases h
  case made c hrun _ => exact makeHeld_sameDefs c hs
  case holds => exact (Calm.setHolds _ s).toServed.sameDefs
  case point => simp [SameDefs]
  case outputs => simp [SameDefs, writeHostLevels]
  case unlatch => simp [SameDefs, clearLatched]
  case served => simp [SameDefs, issueQuery]
  case entryRead hentry => simpa [SameDefs] using map_set_defs hentry rfl
  case station h _ => exact absurd h hs
  case clearPlace h => exact absurd h hs
  case setPlace h => exact absurd ‹_› hs
  case setDef h _ => exact absurd h hs
  case setRule h => exact absurd h hs
  case permit h => exact absurd h hs
  case commit h _ => exact absurd h hs
  all_goals exact .refl s

/-- The definitions stand, and the port takes a further byte of a message outside CONFIG only; the discard mark is set in EXECUTING
only. -/
def DefsHeld (s t : State) : Prop :=
  SameDefs s t ∧ (t.port.perr = false → t.port.phase = .ready ∨ t.port.phase = .filling → t.ctl.state ≠ .config) ∧
    (t.port.discard = true → t.port.phase = .executing)

/-- A change of the port's fields that takes no byte more. -/
theorem DefsHeld.setPort {s t : State} {x : HostPort} (h : DefsHeld s t)
    (hopen : x.perr = false → x.phase = .ready ∨ x.phase = .filling →
      t.port.perr = false ∧ (t.port.phase = .ready ∨ t.port.phase = .filling))
    (hdiscard : x.discard = true → x.phase = .executing) : DefsHeld s (setPort x t) :=
  ⟨h.1, fun hp hx => h.2.1 (hopen hp hx).1 (hopen hp hx).2, hdiscard⟩

/-- A command run on a free port leaves the definitions, and a port that is REPLYING or EXECUTING. -/
theorem execute_defsHeld {s t : State} (m : List Byte) (i : Instr) (h : DefsHeld s t) (hperr : t.port.perr = false)
    (hphase : t.port.phase = .ready ∨ t.port.phase = .filling) : DefsHeld s (execute m (bodyOf i) t) := by
  obtain ⟨hsame, hopen, hdiscard⟩ := h
  have hbody : SameDefs s (bodyOf i (beginExecution m t)).2 :=
    hsame.trans (bodyEffect_sameDefs (s := beginExecution m t) (body_effect i _) (hopen hperr hphase))
  have hno := not_discard_of_open hdiscard hphase
  rcases execute_cases m i t hno with ⟨r, -, hexec⟩ | ⟨-, hexec⟩
  · rw [hexec]
    exact ⟨hbody, fun _ hp => by simp at hp, fun hd => by simp [hno] at hd⟩
  · rw [hexec]
    refine ⟨hbody, fun _ hp => ?_, fun _ => ?_⟩
    · simp [bodyOf_port, beginExecution] at hp
    · simp [bodyOf_port, beginExecution]

theorem DataWritten.defsHeld {b : Byte} {s t u : State} (hw : DataWritten b t u) (h : DefsHeld s t) : DefsHeld s u := by
  have hdiscard := h.2.2
  cases hw with
  | discarded hperr => exact h
  | busy hphase =>
    exact h.setPort (fun hp => by simp at hp) hdiscard
  | code hperr hphase =>
    exact h.setPort (fun _ _ => ⟨hperr, .inl hphase⟩) (fun hd => by simp [hdiscard hd] at hphase)
  | tooLong hperr hphase =>
    exact h.setPort (fun hp => by simp at hp) (fun hd => by simp [hdiscard hd] at hphase)
  | length n hperr hphase hlen _ _ => exact h.setPort (fun _ _ => ⟨hperr, .inr hphase⟩) hdiscard
  | operand n hperr hphase hlen _ => exact h.setPort (fun _ _ => ⟨hperr, .inr hphase⟩) hdiscard
  | ran m i hperr hphase _ => exact execute_defsHeld m i h hperr (.inr hphase)

/-- The accesses but data writes touch the port only, a held command is RESTART or RECONFIGURE. -/
theorem hostAccess_sameDefs {c : Instr} {s t : State} (hc : hostAct c = true) (hm : messageOf c = none)
    (he : exec c s = .next t) (hs : s.ctl.state ≠ .config) (hreset : ∀ inputs, c ≠ .hardwareReset inputs)
    (hwrite : ∀ b, c ≠ .hostDataWrite b) : SameDefs s t := by
  rcases hostAct_cases hc with hm' | ⟨b, rfl⟩ | rfl | ⟨b, rfl⟩ | rfl | ⟨w, rfl⟩
  · simp [hm] at hm'
  · exact absurd rfl (hwrite b)
  · rw [← Host.Outcome.next.inj he]
    unfold dataRead
    split
    · dsimp only
      split <;> exact .refl s
    all_goals exact .refl s
  · rw [← Host.Outcome.next.inj he]
    unfold portReset
    split <;> exact .refl s
  · simp only [exec, execHeldCommandRelease] at he
    split at he
    · injection he with he
      subst he
      split
      · exact .refl s
      · exact makeHeld_sameDefs (s := setCtl { s.ctl with held := none } s) _ hs
    · injection he with he
      exact he ▸ .refl s
  · exact absurd rfl (hreset w)

/-- Filter time, invert mask and publish count. -/
def PointSettings (p : PointUnit) : Byte × Word × Option Nat := (p.filterTime, p.invert, p.publish)

theorem expireFilters_settings (m : Word) (l : List Nat) (p : PointUnit) :
    PointSettings (expireFilters m l p) = PointSettings p := by
  rw [(expireFilters_frame m l p).2]
  rfl

theorem inputChanged_settings (i : Nat) (b : Bool) (s : State) : PointSettings (inputChanged i b s).pts = PointSettings s.pts := by
  unfold inputChanged
  (repeat' split) <;> simp [PointSettings]

theorem takeNotice_settings (s : State) : PointSettings (takeNotice s).pts = PointSettings s.pts := by
  unfold takeNotice
  (repeat' split) <;> simp [PointSettings]

theorem expireConfirm_settings (k : Nat) (s : State) : PointSettings (expireConfirm k s).pts = PointSettings s.pts := by
  unfold expireConfirm
  split <;> simp [PointSettings]

theorem sameDefs_of_settings {s t : State} (hctl : t.ctl = s.ctl) (hdefs : t.cond.defs = s.cond.defs)
    (hedited : t.out.edited = s.out.edited) (hactive : t.out.active = s.out.active) (hpermit : t.par.permit = s.par.permit)
    (hmir : t.mir = s.mir) (hpts : PointSettings t.pts = PointSettings s.pts) : SameDefs s t := by
  simp only [PointSettings, Prod.mk.injEq] at hpts
  simp [SameDefs, hctl, hdefs, hedited, hactive, hpermit, hmir, hpts]

/-- The station's own events leave the definitions. -/
theorem ownEvent_sameDefs {c : Instr} {s t : State} (hc : hostAct c = false) (he : exec c s = .next t) : SameDefs s t := by
  rcases event_cases c with hl | ⟨i, b, rfl⟩ | ⟨m, rfl⟩ | rfl | ⟨k, rfl⟩ | ⟨i, rfl⟩
  · exact (lineEvent_leaves c s t (by simpa [hc] using hl) he).served.sameDefs
  all_goals rw [← Host.Outcome.next.inj he]
  · split
    · exact .refl s
    · exact sameDefs_of_settings (by simp) (by simp) (by simp) (by simp) (by simp) (by simp) (inputChanged_settings _ _ _)
  · exact sameDefs_of_settings (by simp) (by simp) (by simp) (by simp) (by simp) (by simp)
      (by simpa [PointSettings] using expireFilters_settings m (List.range 16) s.pts)
  · exact sameDefs_of_settings (by simp) (by simp) (by simp) (by simp) (by simp) (by simp) (takeNotice_settings s)
  · exact sameDefs_of_settings (by simp) (by simp) (by simp) (by simp) (by simp) (by simp) (expireConfirm_settings _ s)
  · simp [SameDefs]

/-- Settles O60: a message begins and runs outside CONFIG only, where no body changes a definition; no other command does. -/
theorem definitionsStandOutsideConfig : Obligations.DefinitionsStandOutsideConfig := by
  intro c s t he hs hreset hdiscard
  show SameDefs s t
  have hstart : DefsHeld s s := ⟨.refl s, fun _ _ => hs, hdiscard⟩
  cases hm : messageOf c with
  | some message =>
    exact (message_keeps (P := DefsHeld s) (fun b u hu => (dataWrite_written b u).defsHeld hu)
      (fun m i u _ hperr hphase hu => execute_defsHeld m i hu hperr (.inl hphase)) hm he hstart).1
  | none =>
    cases hc : hostAct c with
    | false => exact ownEvent_sameDefs hc he
    | true =>
      by_cases hwrite : ∃ b, c = .hostDataWrite b
      · obtain ⟨b, rfl⟩ := hwrite
        exact Host.Outcome.next.inj he ▸ ((dataWrite_written b s).defsHeld hstart).1
      · exact hostAccess_sameDefs hc hm he hs hreset fun b hb => hwrite ⟨b, hb⟩

end Sys2Proof.Machine

/-! PROOF. What a command's body answers, and the host port along every step (R146 to R153). -/

namespace Sys2Proof.Machine

/-! ### What a body answers (R37, R148) -/

/-- No condition has more than four terms (R162). -/
def TermsFit (s : State) : Prop := ∀ d, some d ∈ s.cond.defs → d.terms.length ≤ 4

/-- A reply is given, of 30 data bytes at most, and no command is held. -/
def Placed (s : State) (r : Result) : Prop :=
  ∃ reply, r.1 = some reply ∧ (TermsFit s → reply.data.length ≤ 30) ∧ r.2.ctl.held = s.ctl.held

namespace Placed
variable {s t : State}

theorem refuse (st : Status) (s : State) : Placed s (refuse st s) := ⟨_, rfl, fun _ => Nat.zero_le _, rfl⟩

theorem okPlain (h : t.ctl.held = s.ctl.held) : Placed s (okPlain t) := ⟨_, rfl, fun _ => Nat.zero_le _, h⟩

theorem reply {st : Status} {data : List Byte} (hdata : data.length ≤ 30) (h : t.ctl.held = s.ctl.held) :
    Placed s (some ⟨st, data⟩, t) := ⟨_, rfl, fun _ => hdata, h⟩

theorem ite {p : Prop} [Decidable p] {a b : Result} (ha : Placed s a) (hb : Placed s b) : Placed s (if p then a else b) := by
  split
  · exact ha
  · exact hb

theorem inConfig {r : Result} (h : Placed s r) : Placed s (inConfig s r) := ite h (refuse _ s)

theorem whenRunning {r : Result} (h : Placed s r) : Placed s (whenRunning s r) := ite (refuse _ s) h

theorem definedBytes_le {α : Type} {fields : α → List Byte} {n k : Nat} {o : Option α} (hn : n ≤ k)
    (h : ∀ a, o = some a → (fields a).length ≤ k) : (definedBytes fields n o).length ≤ k + 1 := by
  cases o with
  | none => simpa [definedBytes] using hn
  | some a => simpa [definedBytes] using h a rfl

theorem mem_of_condAt {c : CondUnit} {k : Nat} {d : Condition} (h : condAt c k = some d) : some d ∈ c.defs := by
  unfold condAt at h
  cases ho : c.defs[k]? with
  | none => simp [ho] at h
  | some o =>
    simp only [ho, Option.getD_some] at h
    exact h ▸ List.mem_of_getElem? ho

theorem conditionBytes_length (d : Condition) : (conditionBytes d).length = 7 + 5 * d.terms.length := by
  have hterms : (d.terms.flatMap termBytes).length = 5 * d.terms.length := by
    rw [List.length_flatMap]
    simp [termBytes, wordBytes, Nat.mul_comm]
  simp [conditionBytes, hterms]
  omega

theorem readConfig (ops : List Byte) (s : State) : Placed s (cmdReadConfig ops s) := by
  unfold cmdReadConfig
  split
  · refine ite (ite ?settings (refuse _ s)) (ite (ite ?entry (refuse _ s)) (ite (ite ?condition (refuse _ s))
      (ite (ite ?rule (refuse _ s)) (ite (ite ?permit (refuse _ s)) (refuse _ s)))))
    case settings => exact reply (by simp [settingsBytes]) rfl
    case entry =>
      have hentry := definedBytes_le (fields := entryBytes) (n := 4) (k := 4) (o := entryAt s.mir (BitVec.toNat ‹_›))
        (Nat.le_refl 4) fun e _ => Nat.le_refl 4
      exact reply (by simp only [List.length_append, List.length_cons, List.length_nil]; omega) rfl
    case condition =>
      refine ⟨_, rfl, fun hfit => ?_, rfl⟩
      have hcondition := definedBytes_le (fields := conditionBytes) (n := 7) (k := 27) (o := condAt s.cond (BitVec.toNat ‹_›))
        (by omega) fun d hd => by
          have hterms := hfit d (mem_of_condAt hd)
          rw [conditionBytes_length]
          omega
      simp only [List.length_append, List.length_cons, List.length_nil]
      omega
    case rule =>
      have hrule := definedBytes_le (fields := ruleBytes) (n := 4) (k := 4) (o := ruleAt s.out.edited (BitVec.toNat ‹_›))
        (Nat.le_refl 4) fun e _ => Nat.le_refl 4
      exact reply (by simp only [List.length_append, List.length_cons, List.length_nil]; omega) rfl
    case permit => exact reply (by simp [wordBytes]) rfl
  · exact refuse _ s

theorem setStation (ops : List Byte) (s : State) : Placed s (cmdSetStation ops s) := by
  unfold cmdSetStation
  split
  · exact inConfig (ite (okPlain rfl) (refuse _ s))
  · exact refuse _ s

theorem setEntry (ops : List Byte) (s : State) : Placed s (cmdSetEntry ops s) := by
  unfold cmdSetEntry
  split
  · refine inConfig (ite ?_ (refuse _ s))
    split
    · exact okPlain rfl
    · exact refuse _ s
  · exact refuse _ s

theorem clearEntry (ops : List Byte) (s : State) : Placed s (cmdClearEntry ops s) := by
  unfold cmdClearEntry
  split
  · exact inConfig (ite (okPlain rfl) (refuse _ s))
  · exact refuse _ s

theorem setCondition (ops : List Byte) (s : State) : Placed s (cmdSetCondition ops s) := by
  unfold cmdSetCondition
  split
  · refine ite (inConfig (ite ?_ (refuse _ s))) (refuse _ s)
    split
    · exact okPlain rfl
    · exact refuse _ s
  · exact refuse _ s

theorem clearCondition (ops : List Byte) (s : State) : Placed s (cmdClearCondition ops s) := by
  unfold cmdClearCondition
  split
  · exact inConfig (ite (okPlain rfl) (refuse _ s))
  · exact refuse _ s

theorem setOutput (ops : List Byte) (s : State) : Placed s (cmdSetOutput ops s) := by
  unfold cmdSetOutput
  split
  · refine inConfig (ite ?_ (refuse _ s))
    split
    · exact okPlain rfl
    · exact refuse _ s
  · exact refuse _ s

theorem clearOutput (ops : List Byte) (s : State) : Placed s (cmdClearOutput ops s) := by
  unfold cmdClearOutput
  split
  · exact inConfig (ite (okPlain rfl) (refuse _ s))
  · exact refuse _ s

theorem setPermit (ops : List Byte) (s : State) : Placed s (cmdSetPermit ops s) := by
  unfold cmdSetPermit
  split
  · exact inConfig (okPlain rfl)
  · exact refuse _ s

theorem commit (ops : List Byte) (s : State) : Placed s (cmdCommit ops s) := by
  unfold cmdCommit
  split
  · refine inConfig ?_
    split
    · exact reply (by simp) rfl
    · exact reply (by simp [wordBytes]) (by simp [commitNow_eq])
  · exact refuse _ s

theorem getStatus (ops : List Byte) (s : State) : Placed s (cmdGetStatus ops s) := by
  unfold cmdGetStatus
  split
  · exact reply (by simp [wordBytes]) rfl
  · exact refuse _ s

theorem readParameter (ops : List Byte) (s : State) : Placed s (cmdReadParameter ops s) := by
  unfold cmdReadParameter
  split
  · exact ite (reply (by simp [wordBytes]) rfl) (refuse _ s)
  · exact refuse _ s

theorem writeParameter (ops : List Byte) (s : State) : Placed s (cmdWriteParameter ops s) := by
  unfold cmdWriteParameter
  split
  · exact ite (okPlain (by simp [storeWord])) (refuse _ s)
  · exact refuse _ s

theorem clearCounters (ops : List Byte) (s : State) : Placed s (cmdClearCounters ops s) := by
  unfold cmdClearCounters
  split
  · exact okPlain rfl
  · exact refuse _ s

theorem takeEvent (ops : List Byte) (s : State) : Placed s (cmdTakeEvent ops s) := by
  unfold cmdTakeEvent
  split
  · split
    · exact okPlain rfl
    · exact reply (by simp [recordBytes]) rfl
  · exact refuse _ s

theorem hold (ops : List Byte) (s : State) : Placed s (cmdHold ops s) := by
  unfold cmdHold
  split
  · exact whenRunning (reply (by simp) (by simp))
  · exact refuse _ s

theorem resume (ops : List Byte) (s : State) : Placed s (cmdResume ops s) := by
  unfold cmdResume
  split
  · exact whenRunning (reply (by simp) (by simp))
  · exact refuse _ s

theorem writePoint (ops : List Byte) (s : State) : Placed s (cmdWritePoint ops s) := by
  unfold cmdWritePoint
  split
  · refine whenRunning (ite ?_ (refuse _ s))
    split
    · exact okPlain (by simp)
    · exact refuse _ s
  · exact refuse _ s

theorem readPoints (ops : List Byte) (s : State) : Placed s (cmdReadPoints ops s) := by
  unfold cmdReadPoints
  split
  · exact whenRunning (reply (by simp [wordBytes]) rfl)
  · exact refuse _ s

theorem readEntry (ops : List Byte) (s : State) : Placed s (cmdReadEntry ops s) := by
  unfold cmdReadEntry
  split
  · refine whenRunning (ite ?_ (refuse _ s))
    split
    · exact reply (by simp [wordBytes]) rfl
    · exact refuse _ s
  · exact refuse _ s

theorem readConditions (ops : List Byte) (s : State) : Placed s (cmdReadConditions ops s) := by
  unfold cmdReadConditions
  split
  · exact whenRunning (reply (by simp [wordBytes]) rfl)
  · exact refuse _ s

theorem readOutputs (ops : List Byte) (s : State) : Placed s (cmdReadOutputs ops s) := by
  unfold cmdReadOutputs
  split
  · exact whenRunning (reply (by simp [wordBytes]) rfl)
  · exact refuse _ s

theorem setOutputs (ops : List Byte) (s : State) : Placed s (cmdSetOutputs ops s) := by
  unfold cmdSetOutputs
  split
  · exact whenRunning (ite (okPlain (by simp [writeHostLevels])) (refuse _ s))
  · exact refuse _ s

theorem unlatch (ops : List Byte) (s : State) : Placed s (cmdUnlatch ops s) := by
  unfold cmdUnlatch
  split
  · exact whenRunning (ite (reply (by simp [wordBytes]) (by simp [clearLatched])) (refuse _ s))
  · exact refuse _ s

theorem query (ops : List Byte) (s : State) : Placed s (cmdQuery ops s) := by
  unfold cmdQuery
  split
  · refine whenRunning (ite (refuse _ s) ?_)
    split
    · refine ite (ite (ite ?_ ?_) (refuse _ s)) (refuse _ s)
      · exact reply (by simp) (by simp [issueQuery])
      · exact reply (by simp) rfl
    · exact refuse _ s
  · exact refuse _ s

theorem takeAnswer (ops : List Byte) (s : State) : Placed s (cmdTakeAnswer ops s) := by
  unfold cmdTakeAnswer
  split
  · refine whenRunning (ite ?_ (refuse _ s))
    split
    · exact ite (reply (by simp [wordBytes]) rfl) (refuse _ s)
    · exact refuse _ s
  · exact refuse _ s

end Placed

/-- The command is taken without a reply: RESTART or RECONFIGURE with an own frame on the line (R37). -/
def Kept (s : State) (r : Result) : Prop :=
  ∃ c, r = (none, setCtl { s.ctl with held := some c } s) ∧ s.ctl.state ≠ .config ∧ txSending s = true

theorem holdOrMake_answers (c : HeldCommand) {s : State} (h : s.ctl.state ≠ .config) :
    Placed s (holdOrMake c s) ∨ Kept s (holdOrMake c s) := by
  unfold holdOrMake
  split
  · exact .inr ⟨c, rfl, h, ‹_›⟩
  · exact .inl (.okPlain (by cases c <;> simp [makeHeld]))

theorem stationCommand_answers (c : HeldCommand) (s : State) :
    Placed s (whenRunning s (holdOrMake c s)) ∨ Kept s (whenRunning s (holdOrMake c s)) := by
  rcases whenRunning_cases s (holdOrMake c s) with ⟨hr, heq⟩ | heq <;> rw [heq]
  · exact holdOrMake_answers c hr
  · exact .inl (.refuse _ s)

/-- Every body gives its reply, or keeps the command held. -/
theorem body_answers (i : Instr) (s : State) : Placed s (bodyOf i s) ∨ Kept s (bodyOf i s) := by
  cases i
  case restart ops =>
    show Placed s (cmdRestart ops s) ∨ Kept s (cmdRestart ops s)
    unfold cmdRestart
    split
    · exact stationCommand_answers _ s
    · exact .inl (.refuse _ s)
  case reconfigure ops =>
    show Placed s (cmdReconfigure ops s) ∨ Kept s (cmdReconfigure ops s)
    unfold cmdReconfigure
    split
    · exact stationCommand_answers _ s
    · exact .inl (.refuse _ s)
  case setStation ops => exact .inl (.setStation ops s)
  case setEntry ops => exact .inl (.setEntry ops s)
  case clearEntry ops => exact .inl (.clearEntry ops s)
  case setCondition ops => exact .inl (.setCondition ops s)
  case clearCondition ops => exact .inl (.clearCondition ops s)
  case setOutput ops => exact .inl (.setOutput ops s)
  case clearOutput ops => exact .inl (.clearOutput ops s)
  case setPermit ops => exact .inl (.setPermit ops s)
  case commit ops => exact .inl (.commit ops s)
  case readConfig ops => exact .inl (.readConfig ops s)
  case getStatus ops => exact .inl (.getStatus ops s)
  case readParameter ops => exact .inl (.readParameter ops s)
  case writeParameter ops => exact .inl (.writeParameter ops s)
  case clearCounters ops => exact .inl (.clearCounters ops s)
  case takeEvent ops => exact .inl (.takeEvent ops s)
  case hold ops => exact .inl (.hold ops s)
  case resume ops => exact .inl (.resume ops s)
  case writePoint ops => exact .inl (.writePoint ops s)
  case readPoints ops => exact .inl (.readPoints ops s)
  case readEntry ops => exact .inl (.readEntry ops s)
  case readConditions ops => exact .inl (.readConditions ops s)
  case readOutputs ops => exact .inl (.readOutputs ops s)
  case setOutputs ops => exact .inl (.setOutputs ops s)
  case unlatch ops => exact .inl (.unlatch ops s)
  case query ops => exact .inl (.query ops s)
  case takeAnswer ops => exact .inl (.takeAnswer ops s)
  all_goals exact .inl (.refuse _ s)

end Sys2Proof.Machine

/-! PROOF. The host port along every step (R146 to R153). -/

namespace Sys2Proof.Machine

/-! ### A sound port, phase by phase -/

section Phases
variable {s : State}

theorem portSound_ready (h : s.port.phase = .ready) : PortSound s ↔ s.port.discard = false ∧ s.ctl.held = none ∧ TermsFit s ∧
    s.port.buf = [] ∧ s.port.len = none ∧ s.port.reply = [] ∧ s.port.pos = 0 := by
  simp [PortSound, TermsFit, h]

theorem portSound_filling (h : s.port.phase = .filling) : PortSound s ↔ s.port.discard = false ∧ s.ctl.held = none ∧
    TermsFit s ∧ s.port.perr = false ∧ s.port.reply = [] ∧ s.port.pos = 0 ∧
    (s.port.len = none → s.port.buf.length = 1) ∧
    ∀ n, s.port.len = some n → 1 ≤ n ∧ n ≤ 30 ∧ 2 ≤ s.port.buf.length ∧ s.port.buf.length < 2 + n := by
  simp only [PortSound, TermsFit, h, reduceCtorEq, imp_false, iff_false, not_not, Bool.not_eq_true]
  cases s.port.len <;> simp

theorem portSound_executing (h : s.port.phase = .executing) : PortSound s ↔ s.ctl.held ≠ none ∧ TermsFit s ∧
    s.port.buf.length ≤ 32 ∧ s.port.reply = [] ∧ s.port.pos = 0 := by
  simp [PortSound, TermsFit, h]

theorem portSound_replying (h : s.port.phase = .replying) : PortSound s ↔ s.port.discard = false ∧ s.ctl.held = none ∧
    TermsFit s ∧ s.port.buf = [] ∧ s.port.len = none ∧ s.port.reply.length ≤ 32 ∧ s.port.pos < s.port.reply.length := by
  simp [PortSound, TermsFit, h]

end Phases

/-- Soundness of the port depends on the port, the held command and the condition definitions. -/
theorem PortSound.congr {s t : State} (h : PortSound s) (hport : t.port = s.port) (hheld : t.ctl.held = s.ctl.held)
    (hdefs : t.cond.defs = s.cond.defs) : PortSound t := by
  unfold PortSound at *
  rwa [hport, hheld, hdefs]

theorem PortSound.terms {s : State} (h : PortSound s) : TermsFit s := h.2.2.1

theorem TermsFit.congr {s t : State} (h : TermsFit s) (hdefs : t.cond.defs = s.cond.defs) : TermsFit t := by
  unfold TermsFit at *
  rwa [hdefs]

theorem bodyEffect_termsFit {s t : State} (h : BodyEffect s t) (hs : TermsFit s) : TermsFit t := by
  cases h
  case setDef k d _ hd =>
    intro c hc
    rcases List.mem_or_eq_of_mem_set hc with hc | hc
    · exact hs c hc
    · exact hd c hc.symm
  case commit => exact hs.congr (by simp [commitNow_eq])
  case made c _ _ =>
    cases c with
    | restart => exact hs.congr (by simp [makeHeld])
    | reconfigure => exact hs.congr (by simp [makeHeld, clearResults])
  all_goals exact hs.congr (by simp [setPlace, setRule, storeWord, setCounters, writeHostLevels, clearLatched, issueQuery, setQueries])

/-! ### The accesses -/

/-- A command run where the port awaited its message ends in REPLYING with its reply, or is held in EXECUTING (R37, R148). -/
theorem execute_portSound {s : State} (m : List Byte) (i : Instr) (hm : m.length ≤ 32) (hno : s.port.discard = false)
    (hheld : s.ctl.held = none) (hterms : TermsFit s) (hreply : s.port.reply = []) (hpos : s.port.pos = 0) :
    PortSound (execute m (bodyOf i) s) := by
  have hfit : TermsFit (bodyOf i (beginExecution m s)).2 :=
    bodyEffect_termsFit (s := beginExecution m s) (body_effect i _) hterms
  rcases body_answers i (beginExecution m s) with ⟨r, hr, hdata, hkeep⟩ | ⟨c, hc, -, -⟩
  · rcases execute_cases m i s hno with ⟨r', hr', hexec⟩ | ⟨hnone, -⟩
    · rw [hr, Option.some.injEq] at hr'
      subst hr'
      rw [hexec, portSound_replying rfl]
      have hlength := hdata hterms
      refine ⟨hno, hkeep.trans hheld, hfit, rfl, rfl, ?_, ?_⟩ <;> simp [replyBytes]
      omega
    · simp [hr] at hnone
  · rcases execute_cases m i s hno with ⟨r', hr', -⟩ | ⟨-, hexec⟩
    · simp [hc] at hr'
    · rw [hexec, portSound_executing (by simp [bodyOf_port, beginExecution])]
      exact ⟨by simp [hc], hfit, by simpa [bodyOf_port, beginExecution] using hm, by simpa [bodyOf_port, beginExecution] using hreply,
        by simpa [bodyOf_port, beginExecution] using hpos⟩

theorem DataWritten.portSound {b : Byte} {s t : State} (hw : DataWritten b s t) (h : PortSound s) : PortSound t := by
  cases hw with
  | discarded hperr => exact h
  | busy hphase =>
    rcases hphase with hphase | hphase
    · rw [portSound_executing hphase] at h
      exact (portSound_executing (s := setPerr s) hphase).2 h
    · rw [portSound_replying hphase] at h
      exact (portSound_replying (s := setPerr s) hphase).2 h
  | code hperr hphase =>
    obtain ⟨hno, hheld, hterms, hbuf, hlen, hreply, hpos⟩ := (portSound_ready hphase).1 h
    exact (portSound_filling rfl).2 ⟨hno, hheld, hterms, hperr, hreply, hpos, fun _ => rfl, fun n hn => by simp at hn⟩
  | tooLong hperr hphase =>
    obtain ⟨hno, hheld, hterms, -, hreply, hpos, -, -⟩ := (portSound_filling hphase).1 h
    exact (portSound_ready rfl).2 ⟨hno, hheld, hterms, rfl, rfl, hreply, hpos⟩
  | length n hperr hphase hlen hpositive hle =>
    obtain ⟨hno, hheld, hterms, -, hreply, hpos, hnone, -⟩ := (portSound_filling hphase).1 h
    refine (portSound_filling (by exact hphase)).2 ⟨hno, hheld, hterms, hperr, hreply, hpos, fun hn => by simp at hn, fun k hk => ?_⟩
    have hbuf := hnone hlen
    have hk : n = k := Option.some.inj hk
    simp only [setPort_port, List.length_append, List.length_singleton]
    omega
  | operand n hperr hphase hlen hopen =>
    obtain ⟨hno, hheld, hterms, -, hreply, hpos, -, hsome⟩ := (portSound_filling hphase).1 h
    refine (portSound_filling (by exact hphase)).2 ⟨hno, hheld, hterms, hperr, hreply, hpos, fun hn => ?_, fun k hk => ?_⟩
    · simp [hlen] at hn
    · obtain ⟨h1, h30, h2, hlt⟩ := hsome n hlen
      have hk : n = k := Option.some.inj (hlen.symm.trans hk)
      simp only [setPort_port, List.length_append, List.length_singleton]
      omega
  | ran m i hperr hphase hlength =>
    obtain ⟨hno, hheld, hterms, -, hreply, hpos, hnone, hsome⟩ := (portSound_filling hphase).1 h
    refine execute_portSound m i ?_ hno hheld hterms hreply hpos
    cases hlen : s.port.len with
    | none =>
      have hbuf := hnone hlen
      omega
    | some n =>
      obtain ⟨h1, h30, h2, hlt⟩ := hsome n hlen
      omega

theorem dataRead_portSound {s : State} (h : PortSound s) : PortSound (dataRead s) := by
  cases hphase : s.port.phase with
  | ready =>
    rw [portSound_ready hphase] at h
    rw [dataRead, hphase]
    exact (portSound_ready (by exact hphase)).2 h
  | filling =>
    obtain ⟨hno, hheld, hterms, -, hreply, hpos, -, -⟩ := (portSound_filling hphase).1 h
    rw [dataRead, hphase]
    exact (portSound_ready rfl).2 ⟨hno, hheld, hterms, rfl, rfl, hreply, hpos⟩
  | executing =>
    rw [portSound_executing hphase] at h
    rw [dataRead, hphase]
    exact (portSound_executing (by exact hphase)).2 h
  | replying =>
    obtain ⟨hno, hheld, hterms, hbuf, hlen, hlength, hpos⟩ := (portSound_replying hphase).1 h
    by_cases hlast : s.port.reply.length ≤ s.port.pos + 1
    · rw [dataRead_last hphase hlast]
      exact (portSound_ready rfl).2 ⟨hno, hheld, hterms, hbuf, hlen, rfl, rfl⟩
    · rw [dataRead_within hphase (by omega)]
      exact (portSound_replying (by exact hphase)).2 ⟨hno, hheld, hterms, hbuf, hlen, hlength, Nat.lt_of_not_le (by exact hlast)⟩

theorem portReset_portSound {s : State} (h : PortSound s) : PortSound (portReset s) := by
  cases hphase : s.port.phase with
  | ready =>
    rw [portSound_ready hphase] at h
    rw [portReset, hphase]
    exact (portSound_ready (by exact hphase)).2 h
  | filling =>
    obtain ⟨hno, hheld, hterms, -⟩ := (portSound_filling hphase).1 h
    rw [portReset, hphase]
    exact (portSound_ready rfl).2 ⟨hno, hheld, hterms, rfl, rfl, rfl, rfl⟩
  | executing =>
    obtain ⟨hheld, hterms, -⟩ := (portSound_executing hphase).1 h
    rw [portReset, hphase]
    exact (portSound_executing (by exact hphase)).2 ⟨hheld, hterms, Nat.zero_le _, rfl, rfl⟩
  | replying =>
    obtain ⟨hno, hheld, hterms, -⟩ := (portSound_replying hphase).1 h
    rw [portReset, hphase]
    exact (portSound_ready rfl).2 ⟨hno, hheld, hterms, rfl, rfl, rfl, rfl⟩

theorem makeHeld_held (c : HeldCommand) (s : State) : (makeHeld c s).ctl.held = s.ctl.held := by cases c <;> simp [makeHeld]

theorem makeHeld_termsFit (c : HeldCommand) {s : State} (h : TermsFit s) : TermsFit (makeHeld c s) := by
  cases c with
  | restart => exact h.congr (by simp [makeHeld])
  | reconfigure => exact h.congr (by simp [makeHeld, clearResults])

/-- A held command that is made ends its execution: the reply is placed, or discarded with the mark set (R148, R152). -/
theorem release_portSound (c : HeldCommand) {s : State} (h : PortSound s) :
    PortSound (endExecution ⟨.ok, []⟩ (makeHeld c (setCtl { s.ctl with held := none } s))) := by
  have hport := makeHeld_port c (setCtl { s.ctl with held := none } s)
  have hheld := makeHeld_held c (setCtl { s.ctl with held := none } s)
  have hterms : TermsFit (makeHeld c (setCtl { s.ctl with held := none } s)) :=
    makeHeld_termsFit c (s := setCtl { s.ctl with held := none } s) h.terms
  unfold endExecution endPort
  split
  · exact (portSound_ready rfl).2 ⟨rfl, hheld, hterms, rfl, rfl, rfl, rfl⟩
  · rename_i hno
    exact (portSound_replying rfl).2 ⟨by simpa using hno, hheld, hterms, rfl, rfl, by simp [replyBytes], by simp [replyBytes]⟩

theorem exec_portSound (c : Instr) {s t : State} (he : exec c s = .next t) (h : PortSound s) : PortSound t := by
  cases hc : hostAct c with
  | true =>
    refine hostAct_keeps (fun b u hu => (dataWrite_written b u).portSound hu) (fun m i u hm _ hphase hu => ?run)
      (fun u hu => dataRead_portSound hu) (fun u hu => portReset_portSound hu) (fun c u hu _ _ => release_portSound c hu)
      (fun w u => ?reset) hc he h
    case run =>
      obtain ⟨hno, hheld, hterms, -, -, hreply, hpos⟩ := (portSound_ready hphase).1 hu
      exact execute_portSound m i hm hno hheld hterms hreply hpos
    case reset =>
      refine (portSound_ready rfl).2 ⟨rfl, rfl, fun d hd => ?_, rfl, rfl, rfl, rfl⟩
      have hnone : (State.resetWith w).cond.defs = List.replicate 16 none := rfl
      simp [hnone] at hd
  | false =>
    refine ownEvent_keeps (fun c u v hl hv hu => ?line) (fun i b u v hv hu => ?input) (fun m u v hv hu => ?filter)
      (fun u hu => hu.congr (by simp) (by simp) (by simp)) (fun k u _ hu => hu.congr (by simp) (by simp) (by simp))
      (fun i u _ hu => hu.congr (by simp) (by simp) (by simp)) hc he h
    case line =>
      have hserved := (lineEvent_leaves c u v hl hv).served
      exact hu.congr hserved.port hserved.held hserved.condDefs
    case input =>
      rw [← Host.Outcome.next.inj hv]
      split
      · exact hu
      · exact hu.congr (by simp) (by simp) (by simp)
    case filter =>
      rw [← Host.Outcome.next.inj hv]
      exact hu.congr (by simp) (by simp) (by simp)

/-- A property that `exec` keeps, passing time keeps and the queue of waiting commands does not touch is kept by a step. -/
theorem step_keeps {P : State → Prop} (hexec : ∀ c s t, exec c s = .next t → P s → P t)
    (hpending : ∀ x s, P s → P (setPending x s)) (htick : ∀ s, P s → P (tick s)) {s t : State} (hstep : step s = .next t)
    (h : P s) : P t := by
  unfold step at hstep
  split at hstep
  · exact hexec _ _ t hstep (hpending _ s h)
  · split at hstep
    · exact hexec _ _ t hstep h
    · exact Host.Outcome.next.inj hstep ▸ htick s h

/-- Settles O58: accesses and runs by the phase they find; nothing else touches port, held command or definitions. -/
theorem portStaysSound : Obligations.PortStaysSound := fun _ _ hs h =>
  step_keeps (fun c _ _ he hu => exec_portSound c he hu) (fun _ _ hu => hu)
    (fun _ hu => hu.congr (by simp) (by simp) (by simp)) h hs

end Sys2Proof.Machine

/-! PROOF. The condition unit along every step (R80, R93, R96, R100, R101). -/

namespace Sys2Proof.Machine

/-! ### A sound condition unit -/

/-- The condition unit as sound in every station state. -/
def CondCore (s : State) : Prop :=
  s.cond.defs.length = 16 ∧ s.cond.timers.length = 16 ∧ s.pts.points.length = 8 ∧ (∀ k < 16, ConditionSound s.cond k) ∧
    (pointAt s 2).value = s.cond.confirmed

/-- The condition records at their starting values, no notice waiting (R101; log 11). -/
def CondAtRest (s : State) : Prop :=
  s.cond.raw = 0 ∧ s.cond.sure = 0 ∧ s.cond.timers = List.replicate 16 .idle ∧ s.cond.notices = []

theorem conditionsSound_iff (s : State) : ConditionsSound s ↔ CondCore s ∧ (s.ctl.state = .config → CondAtRest s) := by
  simp only [ConditionsSound, CondCore, CondAtRest, and_assoc]

/-- The station `t` has the condition records of `s`; in CONFIG it was there before, and has its notices. -/
structure SameConditions (s t : State) : Prop where
  defs : t.cond.defs = s.cond.defs
  raw : t.cond.raw = s.cond.raw
  sure : t.cond.sure = s.cond.sure
  confirmed : t.cond.confirmed = s.cond.confirmed
  timers : t.cond.timers = s.cond.timers
  pointsLength : t.pts.points.length = s.pts.points.length
  point2 : s.pts.points.length = 8 → (pointAt t 2).value = (pointAt s 2).value
  config : t.ctl.state = .config → s.ctl.state = .config ∧ t.cond.notices = s.cond.notices

theorem conditionSound_congr {c c' : CondUnit} {k : Nat} (h : ConditionSound c k) (hdef : condAt c' k = condAt c k)
    (hraw : bitOf c'.raw k = bitOf c.raw k) (hsure : bitOf c'.sure k = bitOf c.sure k)
    (hconfirmed : bitOf c'.confirmed k = bitOf c.confirmed k) (htimer : timerAt c'.timers k = timerAt c.timers k) :
    ConditionSound c' k := by
  unfold ConditionSound at *
  rwa [hdef, hraw, hsure, hconfirmed, htimer]

theorem SameConditions.core {s t : State} (h : SameConditions s t) (hs : CondCore s) : CondCore t := by
  obtain ⟨hdefs, htimers, hpoints, hsound, hpoint2⟩ := hs
  refine ⟨by rw [h.defs, hdefs], by rw [h.timers, htimers], by rw [h.pointsLength, hpoints], fun k hk => ?_, ?_⟩
  · exact conditionSound_congr (hsound k hk) (by simp only [condAt, h.defs]) (by rw [h.raw]) (by rw [h.sure])
      (by rw [h.confirmed]) (by rw [h.timers])
  · rw [h.point2 hpoints, hpoint2, h.confirmed]

theorem SameConditions.sound {s t : State} (h : SameConditions s t) (hs : ConditionsSound s) : ConditionsSound t := by
  rw [conditionsSound_iff] at hs ⊢
  refine ⟨h.core hs.1, fun hc => ?_⟩
  obtain ⟨hconfig, hnotices⟩ := h.config hc
  obtain ⟨hraw, hsure, htimers, hnone⟩ := hs.2 hconfig
  exact ⟨h.raw.trans hraw, h.sure.trans hsure, h.timers.trans htimers, hnotices.trans hnone⟩

theorem Served.sameConditions {s t : State} (h : Served s t) : SameConditions s t where
  defs := h.condDefs
  raw := h.condRaw
  sure := h.condSure
  confirmed := h.condConfirmed
  timers := h.condTimers
  pointsLength := h.pointsLength
  point2 hl := h.point2 (by omega)
  config hc := ⟨h.config.1 hc, h.notices (h.config.1 hc)⟩

/-- A change of blocks that are not the condition unit's. -/
theorem sameConditions_of_eq {s t : State} (hcond : t.cond = s.cond) (hpts : t.pts.points = s.pts.points)
    (hctl : t.ctl.state = s.ctl.state) : SameConditions s t :=
  ⟨by rw [hcond], by rw [hcond], by rw [hcond], by rw [hcond], by rw [hcond], by rw [hpts], fun _ => by rw [pointAt_congr hpts],
    fun hc => ⟨hctl ▸ hc, by rw [hcond]⟩⟩

theorem notify_sameConditions (n : Notice) (s : State) : SameConditions s (notify n s) where
  defs := by simp
  raw := by simp
  sure := by simp
  confirmed := by simp
  timers := by simp
  pointsLength := by simp
  point2 _ := by rw [pointAt_notify]
  config hc := by
    have hs : s.ctl.state = .config := by simpa using hc
    exact ⟨hs, by rw [notify_cond, if_pos hs]⟩

/-- A condition whose results are FALSE and whose timer is idle is sound, defined or not. -/
theorem conditionSound_of_false {c : CondUnit} {k : Nat} (hraw : bitOf c.raw k = false) (hsure : bitOf c.sure k = false)
    (hconfirmed : bitOf c.confirmed k = false) (htimer : timerAt c.timers k = .idle) : ConditionSound c k := by
  unfold ConditionSound
  rw [htimer]
  exact ⟨fun _ => ⟨hraw, hsure, hconfirmed, rfl⟩, hconfirmed.trans hraw.symm⟩

/-- A unit with its records at their starting values, whatever is defined (R101). -/
theorem condCore_of_rest {s : State} (hdefs : s.cond.defs.length = 16) (hpoints : s.pts.points.length = 8)
    (hraw : s.cond.raw = 0) (hsure : s.cond.sure = 0) (hconfirmed : s.cond.confirmed = 0)
    (htimers : s.cond.timers = List.replicate 16 .idle) (hpoint2 : (pointAt s 2).value = 0) : CondCore s := by
  refine ⟨hdefs, by rw [htimers, List.length_replicate], hpoints, fun k _ => ?_, hpoint2.trans hconfirmed.symm⟩
  exact conditionSound_of_false (by rw [hraw]; exact bitOf_zero k) (by rw [hsure]; exact bitOf_zero k)
    (by rw [hconfirmed]; exact bitOf_zero k) (by rw [htimers, timerAt_replicate])

/-- In CONFIG no condition is confirmed TRUE. -/
theorem confirmed_at_rest {s : State} (h : CondCore s) (hr : CondAtRest s) : s.cond.confirmed = 0 := by
  obtain ⟨hraw, -, htimers, -⟩ := hr
  refine word_ext fun k hk => ?_
  have hsound := (h.2.2.2.1 k hk).2
  rw [htimers, timerAt_replicate] at hsound
  rw [hsound, hraw]

/-! ### Evaluation and confirmation -/

/-- An evaluation leaves a sound record: the timer runs towards the raw result exactly while that is not confirmed (R92, R93). -/
theorem evaluate_conditionSound {k : Nat} {d : Condition} {s : State} (hk : k < 16) (hd : condAt s.cond k = some d)
    (hl : s.cond.timers.length = 16) (h : ConditionSound s.cond k) : ConditionSound (evaluate k d s).1.cond k := by
  obtain ⟨hraw, -, hrecord⟩ := evaluate_record d s hk hl
  have hdef : condAt (evaluate k d s).1.cond k = some d := by simpa [condAt] using hd
  have hrun := h.2
  unfold ConditionSound
  generalize rawResult s k d = raw at hraw hrecord
  generalize (evaluate k d s).1.cond = c at hraw hrecord hdef ⊢
  refine ⟨fun hnone => by rw [hdef] at hnone; simp at hnone, ?_⟩
  cases ht : timerAt s.cond.timers k with
  | running b m =>
    simp only [ht] at hrecord hrun
    rw [hrecord.1, hrecord.2, hraw, hrun.2]
    by_cases hsame : raw = !b
    · rw [if_pos hsame]
      exact hsame.symm
    · rw [if_neg hsame]
      exact ⟨by simpa using hsame, rfl⟩
  | idle =>
    simp only [ht] at hrecord
    by_cases hsame : raw = bitOf s.cond.confirmed k
    · rw [if_pos hsame] at hrecord
      rw [hrecord.1, hrecord.2, hraw]
      exact hsame.symm
    · rw [if_neg hsame] at hrecord
      by_cases hzero : confirmTime d raw = 0
      · rw [if_pos hzero] at hrecord
        rw [hrecord.1, hrecord.2, hraw]
      · rw [if_neg hzero] at hrecord
        rw [hrecord.1, hrecord.2, hraw, startTimer]
        refine ⟨rfl, ?_⟩
        generalize bitOf s.cond.confirmed k = confirmed at hsame
        cases raw <;> cases confirmed <;> simp at hsame ⊢

/-- A confirmed change keeps point 2 at the confirmed results (R96). -/
theorem ConfirmedChange.keeps_point2 {k : Nat} {d : Condition} {b e : Bool} {s t : State} (hc : ConfirmedChange k d b e s t)
    (hl : s.pts.points.length = 8) (h : (pointAt s 2).value = s.cond.confirmed) : (pointAt t 2).value = t.cond.confirmed := by
  rw [hc.point2 hl, hc.cond.1, h]

theorem evaluate_point2 (k : Nat) (d : Condition) {s : State} (hl : s.pts.points.length = 8)
    (h : (pointAt s 2).value = s.cond.confirmed) :
    (pointAt (evaluate k d s).1 2).value = (evaluate k d s).1.cond.confirmed := by
  have hchanged := confirm_changed k d (rawResult s k d) false (storeResult k (rawResult s k d) (allKnown s d) s)
  simp only [evaluate]
  rcases confirmation_cases k d (rawResult s k d) (storeResult k (rawResult s k d) (allKnown s d) s) with hc | hc | hc | hc <;>
    rw [hc.1]
  · exact h
  · exact h
  · exact h
  · generalize confirm k d (rawResult s k d) false (storeResult k (rawResult s k d) (allKnown s d) s) = t at hchanged ⊢
    exact hchanged.keeps_point2 hl h

theorem evaluate_timers_length (k : Nat) (d : Condition) (s : State) :
    (evaluate k d s).1.cond.timers.length = s.cond.timers.length := by
  simp only [evaluate]
  rcases confirmation_cases k d (rawResult s k d) (storeResult k (rawResult s k d) (allKnown s d) s) with hc | hc | hc | hc <;>
    rw [hc.1] <;> simp

theorem evaluate_core {k : Nat} {d : Condition} {s : State} (hk : k < 16) (hd : condAt s.cond k = some d) (h : CondCore s) :
    CondCore (evaluate k d s).1 := by
  obtain ⟨hdefs, htimers, hpoints, hsound, hpoint2⟩ := h
  refine ⟨by simpa using hdefs, (evaluate_timers_length k d s).trans htimers, by simpa using hpoints, fun i hi => ?_,
    evaluate_point2 k d hpoints hpoint2⟩
  by_cases hik : i = k
  · subst hik
    exact evaluate_conditionSound hi hd htimers (hsound i hi)
  · obtain ⟨hraw, hsure, hconfirmed, htimer⟩ := evaluate_other d s hk hik
    exact conditionSound_congr (hsound i hi) (by simp [condAt]) hraw hsure hconfirmed htimer

theorem pass_core (m : Word) {s : State} (h : CondCore s) : CondCore (pass m s) :=
  pass_keeps (fun _ _ _ hk hd hu => evaluate_core hk hd hu) m s h

theorem takeNotice_conditionsSound {s : State} (h : ConditionsSound s) : ConditionsSound (takeNotice s) := by
  unfold takeNotice
  split
  · exact h
  · rename_i hstate
    split
    · exact h
    · rw [conditionsSound_iff] at h ⊢
      refine ⟨pass_core _ ?_, fun hc => absurd (by simpa using hc) hstate⟩
      exact h.1

/-- With its timer idle and the raw result confirmed the changed condition is sound, and every other stays so. -/
theorem ConfirmedChange.core {k : Nat} {d : Condition} {b e : Bool} {s t : State} (hk : k < 16) (h : ConfirmedChange k d b e s t)
    (hdefs : s.cond.defs.length = 16) (htimers : s.cond.timers.length = 16) (hpoints : s.pts.points.length = 8)
    (hlength : t.pts.points.length = 8) (hother : ∀ i < 16, i ≠ k → ConditionSound s.cond i) (hd : condAt s.cond k = some d)
    (hidle : timerAt s.cond.timers k = .idle) (hraw : bitOf s.cond.raw k = b) (hpoint2 : (pointAt s 2).value = s.cond.confirmed) :
    CondCore t := by
  refine ⟨by rw [h.cond.1]; exact hdefs, by rw [h.cond.1]; exact htimers, hlength, fun i hi => ?_, h.keeps_point2 hpoints hpoint2⟩
  rw [h.cond.1]
  by_cases hik : i = k
  · subst hik
    unfold ConditionSound
    refine ⟨fun hnone => ?_, ?_⟩
    · rw [show condAt s.cond i = none from hnone] at hd
      simp at hd
    · simp only [hidle, bitOf_putBit _ _ _ _ hk, if_true, hraw]
  · refine conditionSound_congr (hother i hi hik) rfl rfl rfl ?_ rfl
    simp [hk, hik]

/-- A timer that runs out confirms the raw result it ran towards (R94). -/
theorem expireConfirm_conditionsSound {k : Nat} {s : State} (hk : k < 16) (h : ConditionsSound s) :
    ConditionsSound (expireConfirm k s) := by
  unfold expireConfirm
  split
  · rename_i b n d ht hd
    obtain ⟨⟨hdefs, htimers, hpoints, hsound, hpoint2⟩, hrest⟩ := (conditionsSound_iff s).1 h
    have hrun := (hsound k hk).2
    rw [ht] at hrun
    have hchanged := confirm_changed k d b true (setConfirmTimer k .idle s)
    have hlength : (confirm k d b true (setConfirmTimer k .idle s)).pts.points.length = 8 := by simpa using hpoints
    have hctl := confirm_ctl k d b true (setConfirmTimer k .idle s)
    generalize confirm k d b true (setConfirmTimer k .idle s) = t at hchanged hlength hctl ⊢
    have hcore : CondCore t := by
      refine hchanged.core hk hdefs (by simpa using htimers) hpoints hlength (fun i hi hik => ?_) hd ?_ hrun.1 hpoint2
      · obtain ⟨hraw, hsure, hconfirmed, htimer⟩ := setConfirmTimer_other .idle s hik
        exact conditionSound_congr (hsound i hi) rfl hraw hsure hconfirmed htimer
      · simp [timerAt, htimers, hk]
    have hnotified : SameConditions t (notify (.point2Bit k) t) := notify_sameConditions _ t
    rw [conditionsSound_iff]
    refine ⟨hnotified.core hcore, fun hc => ?_⟩
    have hconfig : s.ctl.state = .config := by
      have ht : t.ctl.state = .config := (hnotified.config hc).1
      rwa [hctl] at ht
    rw [(hrest hconfig).2.2.1, timerAt_replicate] at ht
    simp at ht
  · exact h

/-! ### Passing time -/

theorem timerAt_map_tickTimer (ts : List Timer) (k : Nat) : timerAt (ts.map tickTimer) k = tickTimer (timerAt ts k) := by
  unfold timerAt
  rw [List.getElem?_map]
  cases ts[k]? <;> rfl

theorem tick_cond (s : State) :
    (tick s).cond = s.cond ∨ (tick s).cond = { s.cond with timers := s.cond.timers.map tickTimer } := by
  unfold tick
  dsimp only
  split
  · exact .inl rfl
  · exact .inr rfl

theorem tick_points (s : State) : (tick s).pts.points = s.pts.points := by
  unfold tick
  dsimp only
  split <;> rfl

theorem conditionSound_tick {c : CondUnit} {k : Nat} (h : ConditionSound c k) :
    ConditionSound { c with timers := c.timers.map tickTimer } k := by
  unfold ConditionSound at *
  rw [timerAt_map_tickTimer]
  cases ht : timerAt c.timers k with
  | idle => rwa [ht] at h
  | running b n =>
    rw [ht] at h
    exact ⟨fun hnone => absurd (h.1 hnone).2.2.2 (by simp), h.2⟩

theorem tick_conditionsSound {s : State} (h : ConditionsSound s) : ConditionsSound (tick s) := by
  have hpoints := tick_points s
  rcases tick_cond s with hc | hc
  · exact (sameConditions_of_eq hc hpoints (by simp)).sound h
  · rw [conditionsSound_iff] at h ⊢
    obtain ⟨⟨hdefs, htimers, hlength, hsound, hpoint2⟩, hrest⟩ := h
    refine ⟨⟨by simpa using hdefs, by simpa [hc] using htimers, by rw [hpoints, hlength], fun k hk => ?_, ?_⟩, fun hconfig => ?_⟩
    · rw [hc]
      exact conditionSound_tick (hsound k hk)
    · rw [pointAt_congr hpoints, hpoint2, hc]
    · obtain ⟨hraw, hsure, hidle, hnone⟩ := hrest (by simpa using hconfig)
      rw [CondAtRest, hc]
      exact ⟨hraw, hsure, by simp [hidle, tickTimer], hnone⟩

/-! ### The changes of the station state -/

theorem restartNow_sameConditions (s : State) : SameConditions s (restartNow s) := by
  have hdrive := (Calm.updateDriveMode (restartListening s)).toServed.sameConditions
  have hmirror := (Calm.trans (Calm.leaveIfSynced s) (Calm.restartMirror (leaveIfSynced s))).toServed.sameConditions
  have hcond : (restartListening s).cond = (restartMirror (leaveIfSynced s)).cond := by simp
  refine ⟨?_, ?_, ?_, ?_, ?_, ?_, fun hl => ?_, fun hc => absurd hc (by simp)⟩
  · simp
  · simp
  · simp
  · simp
  · simp
  · simp
  · have hpts : (restartNow s).pts = (updateDriveMode (restartListening s)).pts := by simp
    rw [pointAt_congr (congrArg _ hpts), hdrive.point2 (by simpa using hl)]
    exact congrArg Point.value (pointAt_congr (by simp) 2)

/-- The points of RECONFIGURE: points 0 and 1 as they have come to stand, the others cleared (R36, R57). -/
theorem reconfigureNow_points (s : State) : ∃ l : List Point, l.length = s.pts.points.length ∧
    (reconfigureNow s).pts.points = l.take 2 ++ [⟨0, .held⟩] ++ List.replicate 5 ⟨0, .held⟩ := by
  have hpts : (reconfigureNow s).pts = (reconfigureCleared s).pts := by simp
  rw [hpts, reconfigureCleared, clearPoints_pts]
  refine ⟨_, ?_, rfl⟩
  simp

theorem reconfigureNow_conditionsSound {s : State} (h : ConditionsSound s) : ConditionsSound (reconfigureNow s) := by
  obtain ⟨hdefs, htimers, hpoints, -⟩ := h
  have hcleared : (reconfigureNow s).pts.points.length = 8 ∧ (pointAt (reconfigureNow s) 2).value = 0 := by
    obtain ⟨l, hl, hcleared⟩ := reconfigureNow_points s
    have hlong : (l.take 2).length = 2 := by rw [List.length_take, hl, hpoints]; rfl
    refine ⟨by rw [hcleared, List.append_assoc, List.length_append, hlong]; rfl, ?_⟩
    unfold pointAt
    rw [hcleared, List.append_assoc, List.getElem?_append_right (by omega), hlong]
    rfl
  rw [conditionsSound_iff]
  refine ⟨condCore_of_rest (by simpa [clearResults] using hdefs) hcleared.1 (by simp [clearResults]) (by simp [clearResults])
    (by simp [clearResults]) (by simp [clearResults]) hcleared.2, fun _ => ?_⟩
  simp [CondAtRest, clearResults]

theorem commitNow_conditionsSound {s : State} (h : ConditionsSound s) : ConditionsSound (commitNow s) := by
  obtain ⟨hdefs, -, hpoints, -⟩ := h
  rw [conditionsSound_iff, commitNow_eq]
  refine ⟨pass_core _ ?_, fun hc => absurd hc (by simp)⟩
  refine condCore_of_rest (by simpa using hdefs) ?_ (by simp) (by simp) (by simp) (by simp) ?_
  · simp [commitStart_points hpoints]
  · unfold pointAt
    rw [commitStart_points hpoints]
    rfl

theorem makeHeld_conditionsSound (c : HeldCommand) {s : State} (h : ConditionsSound s) : ConditionsSound (makeHeld c s) := by
  cases c with
  | restart => exact (restartNow_sameConditions s).sound h
  | reconfigure => exact reconfigureNow_conditionsSound h

/-! ### Every step -/

theorem changePoint_sameConditions {i : Nat} (p : Point) (n : Notice) {s : State} (hi : i ≠ 2) (h8 : i ≤ 7) :
    SameConditions s (changePoint i p n s) where
  defs := by simp
  raw := by simp
  sure := by simp
  confirmed := by simp
  timers := by simp
  pointsLength := by simp
  point2 hl := by rw [pointAt_changePoint i 2 p n s (by omega), if_neg (Ne.symm hi)]
  config hc := by
    have hs : s.ctl.state = .config := by simpa using hc
    exact ⟨hs, changePoint_notices_config i p n s hs⟩

theorem setPins_sameConditions (s : State) : SameConditions s (setPins s) where
  defs := by simp
  raw := by simp
  sure := by simp
  confirmed := by simp
  timers := by simp
  pointsLength := by simp
  point2 _ := by rw [pointAt_setPins_ne s 2 (by omega)]
  config hc := by
    have hs : s.ctl.state = .config := by simpa using hc
    exact ⟨hs, setPins_notices_config s hs⟩

theorem SameConditions.trans {s u t : State} (h : SameConditions s u) (k : SameConditions u t) : SameConditions s t where
  defs := k.defs.trans h.defs
  raw := k.raw.trans h.raw
  sure := k.sure.trans h.sure
  confirmed := k.confirmed.trans h.confirmed
  timers := k.timers.trans h.timers
  pointsLength := k.pointsLength.trans h.pointsLength
  point2 hl := (k.point2 (h.pointsLength.trans hl)).trans (h.point2 hl)
  config hc :=
    have hu := k.config hc
    ⟨(h.config hu.1).1, hu.2.trans (h.config hu.1).2⟩

theorem SameConditions.of_start {s u t : State} (h : SameConditions u t) (hcond : u.cond = s.cond)
    (hpts : u.pts.points = s.pts.points) (hctl : u.ctl.state = s.ctl.state) : SameConditions s t :=
  (sameConditions_of_eq hcond hpts hctl).trans h

theorem expirePulse_sameConditions (i : Nat) (s : State) : SameConditions s (expirePulse i s) := by
  unfold expirePulse
  split
  · exact (setPins_sameConditions _).of_start rfl rfl rfl
  · exact sameConditions_of_eq rfl rfl rfl

theorem formPoint0_sameConditions (s : State) : SameConditions s (formPoint0 s) :=
  changePoint_sameConditions _ _ (by omega) (by omega)

theorem inputChanged_sameConditions (i : Nat) (b : Bool) (s : State) : SameConditions s (inputChanged i b s) := by
  unfold inputChanged
  split
  · exact sameConditions_of_eq rfl rfl rfl
  split
  · exact sameConditions_of_eq rfl rfl rfl
  split
  · exact (formPoint0_sameConditions _).of_start rfl rfl rfl
  · exact sameConditions_of_eq rfl rfl rfl

/-- A condition defined or cleared in CONFIG, where every record stands at its starting values (R162, R164). -/
theorem setDef_conditionsSound (k : Nat) (d : Option Condition) {s : State} (hs : s.ctl.state = .config)
    (h : ConditionsSound s) : ConditionsSound (setDef k d s) := by
  rw [conditionsSound_iff] at h ⊢
  obtain ⟨hcore, hrest⟩ := h
  have hconfirmed := confirmed_at_rest hcore (hrest hs)
  obtain ⟨hraw, hsure, htimers, -⟩ := hrest hs
  obtain ⟨hdefs, -, hpoints, -, hpoint2⟩ := hcore
  exact ⟨condCore_of_rest (by simpa [setDef] using hdefs) hpoints hraw hsure hconfirmed htimers (hpoint2.trans hconfirmed), hrest⟩

theorem bodyEffect_conditionsSound {s t : State} (h : BodyEffect s t) (hs : ConditionsSound s) : ConditionsSound t := by
  cases h
  case setDef k d hconfig _ => exact setDef_conditionsSound k d hconfig hs
  case commit => exact commitNow_conditionsSound hs
  case made c _ _ => exact makeHeld_conditionsSound c hs
  case holds b _ => exact (Calm.setHolds _ s).toServed.sameConditions.sound hs
  case point i p _ h3 h7 => exact (changePoint_sameConditions p _ (by omega) h7).sound hs
  case outputs => exact ((setPins_sameConditions _).of_start rfl rfl rfl).sound hs
  case unlatch => exact ((setPins_sameConditions _).of_start rfl rfl rfl).sound hs
  case served => exact (sameConditions_of_eq (by simp [issueQuery]) (by simp [issueQuery]) (by simp [issueQuery])).sound hs
  all_goals exact (sameConditions_of_eq rfl rfl rfl).sound hs

theorem keeps_conditionsSound : Keeps ConditionsSound where
  pending _ _ h := h
  port _ _ h := h
  reset w := (resetWith_sound w []).conditions
  body i s h := bodyEffect_conditionsSound (body_effect i s) h
  release c _ h _ _ := makeHeld_conditionsSound c h
  line c s t hc he h := (lineEvent_leaves c s t hc he).served.sameConditions.sound h
  input i b s t he h := by
    rw [← Host.Outcome.next.inj he]
    split
    · exact h
    · exact ((inputChanged_sameConditions _ _ _).of_start rfl rfl rfl).sound h
  filter m s t he h := by
    rw [← Host.Outcome.next.inj he]
    have hpoints : (expireFilters m (List.range 16) s.pts).points = s.pts.points := by rw [(expireFilters_frame _ _ _).2]
    have hformed := formPoint0_sameConditions (setPts (expireFilters m (List.range 16) s.pts) s)
    exact (hformed.of_start (s := s) rfl hpoints rfl).sound h
  pass _ h := takeNotice_conditionsSound h
  confirm _ _ hk h := expireConfirm_conditionsSound hk h
  pulse i s _ h := (expirePulse_sameConditions i s).sound h
  tick _ h := tick_conditionsSound h

end Sys2Proof.Machine

/-! PROOF. The output unit along every step (R106 to R108, R116, R120), and the conditions with it. -/

namespace Sys2Proof.Machine

/-! ### A sound output unit -/

/-- The output unit's part of `OutputsSound`, for the confirmed results `w`. -/
def OutOk (o : OutUnit) (w : Word) : Prop :=
  o.edited.length = 16 ∧ o.active.length = 16 ∧ o.pulse.length = 16 ∧ o.copy = w ∧ ∀ i < 16, LineSound o i

theorem outputsSound_iff (s : State) : OutputsSound s ↔ OutOk s.out s.cond.confirmed := Iff.rfl

/-- The state of a line that its soundness depends on. -/
theorem lineSound_congr {o p : OutUnit} {i : Nat} (h : LineSound o i) (hactive : p.active = o.active)
    (hlevel : bitOf p.level i = bitOf o.level i) (hlatched : bitOf p.latched i = bitOf o.latched i)
    (hpulse : isRunning (timerAt p.pulse i) = isRunning (timerAt o.pulse i))
    (hcopy : ∀ r c, ruleAt o.active i = some r → r.source = .cond c → bitOf p.copy c.val = bitOf o.copy c.val) :
    LineSound p i := by
  obtain ⟨hrun, hkind⟩ := h
  unfold LineSound
  rw [hactive, hlevel, hlatched, hpulse]
  refine ⟨hrun, ?_⟩
  cases hr : ruleAt o.active i with
  | none => trivial
  | some r =>
    simp only [hr] at hkind ⊢
    cases hs : r.source with
    | host => trivial
    | cond c =>
      have hbit := hcopy r c hr hs
      simp only [hs] at hkind ⊢
      rw [hbit]
      exact hkind

/-- Rules, levels, marks, timers, copies and confirmed results stand. -/
structure SameLines (s t : State) : Prop where
  edited : t.out.edited = s.out.edited
  active : t.out.active = s.out.active
  level : t.out.level = s.out.level
  latched : t.out.latched = s.out.latched
  pulse : t.out.pulse = s.out.pulse
  copy : t.out.copy = s.out.copy
  confirmed : t.cond.confirmed = s.cond.confirmed

theorem SameLines.sound {s t : State} (h : SameLines s t) (hs : OutputsSound s) : OutputsSound t := by
  obtain ⟨hedited, hactive, hpulse, hcopy, hlines⟩ := hs
  refine ⟨by rw [h.edited, hedited], by rw [h.active, hactive], by rw [h.pulse, hpulse], by rw [h.copy, hcopy, h.confirmed],
    fun i hi => ?_⟩
  exact lineSound_congr (hlines i hi) h.active (by rw [h.level]) (by rw [h.latched]) (by rw [h.pulse])
    fun _ _ _ _ => by rw [h.copy]

theorem Served.sameLines {s t : State} (h : Served s t) : SameLines s t :=
  ⟨h.outEdited, h.outActive, h.outLevel, h.outLatched, h.outPulse, h.outCopy, h.condConfirmed⟩

/-- The source rule of a line, read from its kind. -/
theorem isKindLine_iff {rules : List (Option OutRule)} {k : OutKind} {i : Nat} :
    isKindLine rules k i = true ↔ ∃ r c, ruleAt rules i = some r ∧ r.source = .cond c ∧ r.kind = k := by
  unfold isKindLine
  cases ruleAt rules i with
  | none => simp
  | some r =>
    cases hs : r.source with
    | host => simp [hs]
    | cond c => simp [hs]

/-- Rule state started afresh is sound while no condition is confirmed (R120, R121). -/
theorem startRules_lineSound (rules : List (Option OutRule)) (o : OutUnit) {i : Nat} (hi : i < 16) :
    LineSound (startRules rules o) i := by
  have hlevel : bitOf (startRules rules o).level i = isKindLine rules .invert i := bitOf_wordOf _ i hi
  have htimer : timerAt (startRules rules o).pulse i = .idle := timerAt_replicate 16 i
  have hactive : (startRules rules o).active = rules := rfl
  have hlatched : bitOf (startRules rules o).latched i = false := bitOf_zero i
  have hcopy : ∀ k, bitOf (startRules rules o).copy k = false := bitOf_zero
  unfold LineSound
  rw [hlevel, htimer, hactive, hlatched]
  refine ⟨fun h => by simp [isRunning] at h, ?_⟩
  cases hr : ruleAt rules i with
  | none => trivial
  | some r =>
    dsimp only
    cases hs : r.source with
    | host => trivial
    | cond c =>
      have hkind : isKindLine rules .invert i = decide (r.kind = .invert) := by simp [isKindLine, hr, hs]
      dsimp only
      rw [hkind, hcopy]
      cases r.kind <;> simp [isRunning]

/-! ### A confirmed change (R105 to R108) -/

/-- A line acted on by a confirmed change stays sound. -/
theorem LineActed.lineSound {k i : Nat} {b : Bool} {s t : State} (hk : k < 16) (h : LineActed k b s t i)
    (hactive : t.out.active = s.out.active) (hcopy : t.out.copy = putBit s.out.copy k b) (hs : LineSound s.out i) :
    LineSound t.out i := by
  obtain ⟨hconcerned, hother⟩ := h
  by_cases hc : ∃ r c, ruleAt s.out.active i = some r ∧ r.source = .cond c ∧ c.val = k
  · obtain ⟨r, c, hr, hsource, hck⟩ := hc
    obtain ⟨hfollow, hinvert, hlatch, hpulse, -, hlatched, htimer⟩ := hconcerned r c hr hsource hck
    obtain ⟨hrun, hkind⟩ := hs
    have hbit : bitOf t.out.copy c.val = b := by rw [hcopy, hck, bitOf_putBit _ _ _ _ hk, if_pos rfl]
    simp only [hr, hsource] at hkind
    unfold LineSound
    rw [hactive]
    simp only [hr, hsource]
    refine ⟨fun hrunning => ?_, ?_⟩
    · rw [htimer] at hrunning
      split at hrunning
      · rename_i hp
        exact isKindLine_iff.2 ⟨r, c, hr, hsource, hp.1⟩
      · exact hrun hrunning
    · cases hkindOf : r.kind with
      | follow => exact (hfollow hkindOf).trans hbit.symm
      | invert => exact (hinvert hkindOf).trans (by rw [hbit])
      | latch =>
        simp only [hkindOf] at hkind
        dsimp only
        rw [hlatch hkindOf, hlatched, hkind, hkindOf]
        cases bitOf s.out.latched i <;> simp
      | pulse =>
        simp only [hkindOf] at hkind
        dsimp only
        rw [hpulse hkindOf, htimer, hkind, hkindOf]
        cases b <;> simp [startTimer, isRunning]
      | toggle => trivial
  · obtain ⟨hlevel, hlatched, htimer⟩ := hother fun r c hr hsource hck => hc ⟨r, c, hr, hsource, hck⟩
    refine lineSound_congr hs hactive hlevel hlatched (by rw [htimer]) fun r c hr hsource => ?_
    have hne : c.val ≠ k := fun hck => hc ⟨r, c, hr, hsource, hck⟩
    rw [hcopy, bitOf_putBit _ _ _ _ hk, if_neg hne]

theorem confirm_outputsSound {k : Nat} (d : Condition) (b e : Bool) {s : State} (hk : k < 16) (h : OutputsSound s) :
    OutputsSound (confirm k d b e s) := by
  obtain ⟨hedited, hactive, hpulse, hcopy, hlines⟩ := h
  have hchanged := confirm_changed k d b e s
  have hlen : (confirm k d b e s).out.pulse.length = 16 := by simpa using hpulse
  generalize confirm k d b e s = t at hchanged hlen ⊢
  have hact : t.out.active = s.out.active := by rw [hchanged.out]
  have hput : t.out.copy = putBit s.out.copy k b := by rw [hchanged.out]
  refine ⟨?_, by rw [hact, hactive], hlen, ?_, fun i hi => ?_⟩
  · rw [hchanged.out]
    exact hedited
  · rw [hput, hchanged.cond.1, hcopy]
  · exact (hchanged.lines hpulse i hi).lineSound hk hact hput (hlines i hi)

theorem evaluate_outputsSound {k : Nat} (d : Condition) {s : State} (hk : k < 16) (h : OutputsSound s) :
    OutputsSound (evaluate k d s).1 := by
  have hstored : OutputsSound (storeResult k (rawResult s k d) (allKnown s d) s) := h
  have hconfirmed := confirm_outputsSound d (rawResult s k d) false hk hstored
  simp only [evaluate]
  rcases confirmation_cases k d (rawResult s k d) (storeResult k (rawResult s k d) (allKnown s d) s) with hc | hc | hc | hc <;>
    rw [hc.1]
  · exact h
  · exact h
  · exact h
  · generalize confirm k d (rawResult s k d) false (storeResult k (rawResult s k d) (allKnown s d) s) = t at hconfirmed ⊢
    exact hconfirmed

theorem pass_outputsSound (m : Word) {s : State} (h : OutputsSound s) : OutputsSound (pass m s) :=
  pass_keeps (fun _ d _ hk _ hu => evaluate_outputsSound d hk hu) m s h

theorem takeNotice_outputsSound {s : State} (h : OutputsSound s) : OutputsSound (takeNotice s) := by
  unfold takeNotice
  split
  · exact h
  · split
    · exact h
    · exact pass_outputsSound _ h

theorem expireConfirm_outputsSound {k : Nat} {s : State} (hk : k < 16) (h : OutputsSound s) :
    OutputsSound (expireConfirm k s) := by
  unfold expireConfirm
  split
  · rename_i b n d _ _
    have hconfirmed := confirm_outputsSound d b true hk (s := setConfirmTimer k .idle s) h
    generalize confirm k d b true (setConfirmTimer k .idle s) = t at hconfirmed ⊢
    exact SameLines.sound ⟨by simp, by simp, by simp, by simp, by simp, by simp, by simp⟩ hconfirmed
  · exact h

/-! ### Pulse timers, marks and passing time -/

theorem setPins_sameLines (s : State) : SameLines s (setPins s) := ⟨by simp, by simp, by simp, by simp, by simp, by simp, by simp⟩

/-- The output unit with line `i` at 0 and its pulse timer idle. -/
def pulseEnded (i : Nat) (o : OutUnit) : OutUnit := { o with level := putBit o.level i false, pulse := o.pulse.set i .idle }

theorem pulseEnded_lineSound {i j : Nat} {o : OutUnit} (hi : i < 16) (hlen : o.pulse.length = 16)
    (hrun : isRunning (timerAt o.pulse i) = true) (h : LineSound o j) : LineSound (pulseEnded i o) j := by
  by_cases hij : j = i
  · subst hij
    obtain ⟨r, c, hr, hsource, hkind⟩ := isKindLine_iff.1 (h.1 hrun)
    have hidle : timerAt (pulseEnded j o).pulse j = .idle := by simp [pulseEnded, timerAt, hlen, hi]
    have hlevel : bitOf (pulseEnded j o).level j = false := by simp [pulseEnded, hi]
    have hactive : (pulseEnded j o).active = o.active := rfl
    unfold LineSound
    rw [hidle, hlevel, hactive]
    simp [hr, hsource, hkind, isRunning]
  · refine lineSound_congr h rfl ?_ rfl ?_ fun _ _ _ _ => rfl
    · simp [pulseEnded, hi, hij]
    · simp [pulseEnded, timerAt, Ne.symm hij]

/-- A pulse timer that runs out takes its line's level to 0 with it (R108). -/
theorem expirePulse_outputsSound {i : Nat} {s : State} (hi : i < 16) (h : OutputsSound s) : OutputsSound (expirePulse i s) := by
  unfold expirePulse
  split
  · rename_i b n ht
    obtain ⟨hedited, hactive, hpulse, hcopy, hlines⟩ := h
    have hended : OutputsSound (setOut (pulseEnded i s.out) s) :=
      ⟨hedited, hactive, by simpa [pulseEnded] using hpulse, hcopy,
        fun j hj => pulseEnded_lineSound hi hpulse (by rw [ht]; rfl) (hlines j hj)⟩
    exact (setPins_sameLines _).sound hended
  · exact h

/-- Marks and levels of LATCH lines cleared together keep their lines sound (R116). -/
theorem clearLatched_outputsSound {m : Word} {s : State} (hm : m &&& ~~~(wordOf (isKindLine s.out.active .latch)) = 0)
    (c : Word) (h : OutputsSound s) : OutputsSound (clearLatched (m &&& c) s) := by
  obtain ⟨hedited, hactive, hpulse, hcopy, hlines⟩ := h
  refine (setPins_sameLines _).sound ⟨hedited, hactive, hpulse, hcopy, fun i hi => ?_⟩
  by_cases hlatch : isKindLine s.out.active .latch i = true
  · obtain ⟨r, k, hr, hsource, hkind⟩ := isKindLine_iff.1 hlatch
    obtain ⟨hrun, hlevel⟩ := hlines i hi
    refine ⟨hrun, ?_⟩
    simp only [hr, hsource, hkind] at hlevel
    simp [hr, hsource, hkind, hlevel, bitOf_not _ i hi]
  · have hbit : bitOf m i = false := by
      have hzero := congrArg (fun w => bitOf w i) hm
      simpa [bitOf_not _ i hi, hi, hlatch] using hzero
    refine lineSound_congr (hlines i hi) rfl ?_ ?_ rfl fun _ _ _ _ => rfl
    · simp [bitOf_not _ i hi, hbit]
    · simp [bitOf_not _ i hi, hbit]

theorem isRunning_tickTimer (t : Timer) : isRunning (tickTimer t) = isRunning t := by cases t <;> rfl

theorem tick_out (s : State) :
    (tick s).out = s.out ∨ (tick s).out = { s.out with pulse := s.out.pulse.map tickTimer } := by
  unfold tick
  dsimp only
  split
  · exact .inl rfl
  · exact .inr rfl

theorem tick_confirmed (s : State) : (tick s).cond.confirmed = s.cond.confirmed := by
  rcases tick_cond s with hc | hc <;> rw [hc]

theorem tick_outputsSound {s : State} (h : OutputsSound s) : OutputsSound (tick s) := by
  rw [outputsSound_iff, tick_confirmed] at *
  obtain ⟨hedited, hactive, hpulse, hcopy, hlines⟩ := h
  rcases tick_out s with ho | ho <;> rw [ho]
  · exact ⟨hedited, hactive, hpulse, hcopy, hlines⟩
  · refine ⟨hedited, hactive, by simpa using hpulse, hcopy, fun i hi => ?_⟩
    refine lineSound_congr (hlines i hi) rfl rfl rfl ?_ fun _ _ _ _ => rfl
    rw [timerAt_map_tickTimer, isRunning_tickTimer]

/-! ### The changes of the station state -/

/-- Rules started afresh are sound while no condition is confirmed. -/
theorem startRules_outOk {rules : List (Option OutRule)} {o : OutUnit} (hedited : o.edited.length = 16)
    (hrules : rules.length = 16) : OutOk (startRules rules o) 0 :=
  ⟨hedited, hrules, by simp [startRules], rfl, fun _ hi => startRules_lineSound rules o hi⟩

theorem makeHeld_outputsSound (c : HeldCommand) {s : State} (h : OutputsSound s) : OutputsSound (makeHeld c s) := by
  cases c with
  | restart => exact SameLines.sound (t := restartNow s) ⟨by simp, by simp, by simp, by simp, by simp, by simp, by simp⟩ h
  | reconfigure =>
    have hout := (reconfigureNow_frame s).2.2.2.2.2.2.2.2.1
    obtain ⟨hedited, hactive, -⟩ := h
    have hconfirmed : (reconfigureNow s).cond.confirmed = 0 := by simp [clearResults]
    show OutOk (reconfigureNow s).out (reconfigureNow s).cond.confirmed
    rw [hout, hconfirmed]
    exact startRules_outOk hedited hactive

theorem commitNow_outputsSound {s : State} (h : OutputsSound s) : OutputsSound (commitNow s) := by
  obtain ⟨hedited, -⟩ := h
  rw [commitNow_eq]
  refine pass_outputsSound _ ?_
  have hout : (commitStart s).out =
      startRules s.out.edited { s.out with mode := .drive, pins := startLevels s.out.edited } := by
    simp only [commitStart_frame]
    rfl
  have hconfirmed : (commitStart s).cond.confirmed = 0 := by simp
  rw [outputsSound_iff, hout, hconfirmed]
  exact startRules_outOk hedited hedited

theorem bodyEffect_outputsSound {s t : State} (h : BodyEffect s t) (hs : OutputsSound s) : OutputsSound t := by
  cases h
  case setRule i r _ =>
    obtain ⟨hedited, hrest⟩ := hs
    exact ⟨by simpa [setRule] using hedited, hrest⟩
  case commit => exact commitNow_outputsSound hs
  case made c _ _ => exact makeHeld_outputsSound c hs
  case holds b _ => exact (Calm.setHolds _ s).toServed.sameLines.sound hs
  case outputs => exact (setPins_sameLines _).sound hs
  case unlatch m _ hm =>
    rw [BitVec.and_assoc]
    exact clearLatched_outputsSound hm _ hs
  case point => exact SameLines.sound ⟨by simp, by simp, by simp, by simp, by simp, by simp, by simp⟩ hs
  case served =>
    exact SameLines.sound ⟨by simp [issueQuery], by simp [issueQuery], by simp [issueQuery], by simp [issueQuery],
      by simp [issueQuery], by simp [issueQuery], by simp [issueQuery]⟩ hs
  all_goals exact hs

theorem inputChanged_sameLines (i : Nat) (b : Bool) (s : State) : SameLines s (inputChanged i b s) := by
  have hcond := (inputChanged_sameConditions i b s).confirmed
  exact ⟨by simp, by simp, by simp, by simp, by simp, by simp, hcond⟩

theorem keeps_outputsSound : Keeps OutputsSound where
  pending _ _ h := h
  port _ _ h := h
  reset w := (resetWith_sound w []).outputs
  body i s h := bodyEffect_outputsSound (body_effect i s) h
  release c _ h _ _ := makeHeld_outputsSound c h
  line c s t hc he h := (lineEvent_leaves c s t hc he).served.sameLines.sound h
  input i b s t he h := by
    rw [← Host.Outcome.next.inj he]
    split
    · exact h
    · exact (inputChanged_sameLines _ _ _).sound h
  filter m s t he h := by
    rw [← Host.Outcome.next.inj he]
    exact SameLines.sound ⟨by simp, by simp, by simp, by simp, by simp, by simp, by simp⟩ h
  pass _ h := takeNotice_outputsSound h
  confirm _ _ hk h := expireConfirm_outputsSound hk h
  pulse _ _ hi h := expirePulse_outputsSound hi h
  tick _ h := tick_outputsSound h

/-- Settles O56: an evaluation keeps its record, a confirmed change point 2, copy and lines together; entries to CONFIG clear both. -/
theorem conditionsAndOutputsStaySound : Obligations.ConditionsAndOutputsStaySound :=
  fun s t h => ⟨keeps_conditionsSound.step s t h, keeps_outputsSound.step s t h⟩

end Sys2Proof.Machine

/-! PROOF. The drive mode, the pins and points 0 to 2 along every step (R40, R44, R46, R48, R50, R112). -/

namespace Sys2Proof.Machine

/-! ### Pins and points in agreement -/

/-- The blocks hold the controller's drive mode, point 0 the inputs, point 1 the pins, point 2 the quality of the drive mode. -/
structure PinsShape (s : State) : Prop where
  length : s.pts.points.length = 8
  given : s.pts.driveMode = s.ctl.driveMode
  mode : s.out.mode = if s.ctl.state = .config then .config else outModeOf s.ctl.driveMode
  point0 : pointAt s 0 = ⟨s.pts.filtered ^^^ s.pts.invert, .good⟩
  point1 : pointAt s 1 = ⟨s.out.pins, .good⟩
  point2 : (pointAt s 2).quality = qualityOf s.ctl.driveMode

theorem pinsSound_iff (s : State) : PinsSound s ↔
    PinsShape s ∧ s.ctl.driveMode = deriveMode s.ctl.state s.ctl.holds ∧ s.out.pins = shownPins s.out := by
  constructor
  · rintro ⟨hlength, hderived, hgiven, hmode, hpins, h0, h1, h2⟩
    exact ⟨⟨hlength, hgiven, hmode, h0, h1, h2⟩, hderived, hpins⟩
  · rintro ⟨⟨hlength, hgiven, hmode, h0, h1, h2⟩, hderived, hpins⟩
    exact ⟨hlength, hderived, hgiven, hmode, hpins, h0, h1, h2⟩

/-- What the shape depends on stands in `t` as in `s`. -/
structure SameShape (s t : State) : Prop where
  points : t.pts.points = s.pts.points
  filtered : t.pts.filtered = s.pts.filtered
  invert : t.pts.invert = s.pts.invert
  given : t.pts.driveMode = s.pts.driveMode
  driveMode : t.ctl.driveMode = s.ctl.driveMode
  config : t.ctl.state = .config ↔ s.ctl.state = .config
  mode : t.out.mode = s.out.mode
  pins : t.out.pins = s.out.pins

theorem SameShape.shape {s t : State} (h : SameShape s t) (hs : PinsShape s) : PinsShape t where
  length := by rw [h.points, hs.length]
  given := by rw [h.given, hs.given, h.driveMode]
  mode := by
    rw [h.mode, hs.mode, h.driveMode]
    simp only [h.config]
  point0 := by rw [pointAt_congr h.points, hs.point0, h.filtered, h.invert]
  point1 := by rw [pointAt_congr h.points, hs.point1, h.pins]
  point2 := by rw [pointAt_congr h.points, hs.point2, h.driveMode]

/-- A sound station has a sound one behind it. -/
def PinsKept (s t : State) : Prop := PinsSound s → PinsSound t

theorem PinsKept.refl (s : State) : PinsKept s s := id

theorem PinsKept.trans {s u t : State} (h : PinsKept s u) (k : PinsKept u t) : PinsKept s t := fun hs => k (h hs)

/-- A step that leaves points, outputs, drive mode, station state and hold reasons. -/
theorem PinsKept.of_eq {s t : State} (hpts : t.pts = s.pts) (hout : t.out = s.out) (hstate : t.ctl.state = s.ctl.state)
    (hholds : t.ctl.holds = s.ctl.holds) (hmode : t.ctl.driveMode = s.ctl.driveMode) : PinsKept s t := by
  intro hs
  rw [pinsSound_iff] at hs ⊢
  obtain ⟨hshape, hderived, hpins⟩ := hs
  refine ⟨SameShape.shape ⟨by rw [hpts], by rw [hpts], by rw [hpts], by rw [hpts], hmode, by rw [hstate], by rw [hout],
    by rw [hout]⟩ hshape, by rw [hmode, hstate, hholds, hderived], by rw [hout, hpins]⟩

/-- The same for a step that leaves the whole controller. -/
theorem PinsKept.of_ctl {s t : State} (hpts : t.pts = s.pts) (hout : t.out = s.out) (hctl : t.ctl = s.ctl) : PinsKept s t :=
  .of_eq hpts hout (by rw [hctl]) (by rw [hctl]) (by rw [hctl])

/-- A step that touches none of the three blocks may stand before, or behind. -/
theorem PinsKept.of_start {s m t : State} (h : PinsKept m t) (hpts : m.pts = s.pts) (hout : m.out = s.out)
    (hctl : m.ctl = s.ctl) : PinsKept s t := (PinsKept.of_ctl hpts hout hctl).trans h

theorem PinsKept.to_end {s m t : State} (h : PinsKept s m) (hpts : t.pts = m.pts) (hout : t.out = m.out)
    (hctl : t.ctl = m.ctl) : PinsKept s t := h.trans (PinsKept.of_ctl hpts hout hctl)

/-! ### The operations on pins and drive mode -/

/-- Setting the pins makes them and point 1 show the levels in force (R48, R105). -/
theorem setPins_pinsSound {s : State} (h : PinsShape s) (hderived : s.ctl.driveMode = deriveMode s.ctl.state s.ctl.holds) :
    PinsSound (setPins s) := by
  have hpoint (j : Nat) := pointAt_setPins s j (by have := h.length; omega) h.point1
  rw [pinsSound_iff]
  refine ⟨⟨by simpa using h.length, by simpa using h.given, by simpa using h.mode, ?_, ?_, ?_⟩, by simpa using hderived, ?_⟩
  · rw [hpoint]
    simpa using h.point0
  · rw [hpoint]
    simp
  · rw [hpoint]
    simpa using h.point2
  · simp only [setPins_frame]
    rfl

theorem deriveMode_config (h : HoldReasons) : deriveMode .config h = .safe := by simp [deriveMode]

/-- A drive mode given is taken by every block, whatever they held (R40, R50, R113). -/
theorem giveDriveMode_pinsSound {s : State} (hlength : s.pts.points.length = 8)
    (h0 : pointAt s 0 = ⟨s.pts.filtered ^^^ s.pts.invert, .good⟩) (h1 : pointAt s 1 = ⟨s.out.pins, .good⟩) (hr : Running s) :
    PinsSound (giveDriveMode (deriveMode s.ctl.state s.ctl.holds) s) := by
  generalize hm : deriveMode s.ctl.state s.ctl.holds = m
  have hpoint (j : Nat) := pointAt_giveDriveMode m s j (by omega) h1
  have hctl : (giveDriveMode m s).ctl = { s.ctl with driveMode := m } := by simp
  have hout : (giveDriveMode m s).out =
      { s.out with mode := outModeOf m, pins := shownPins { s.out with mode := outModeOf m } } := by simp
  rw [pinsSound_iff]
  refine ⟨⟨by simpa using hlength, by simp, ?_, ?_, ?_, ?_⟩, by rw [hctl]; exact hm.symm, ?_⟩
  · rw [hout, hctl]
    exact (if_neg hr).symm
  · rw [hpoint]
    simpa using h0
  · rw [hpoint, hout]
    rfl
  · rw [hpoint, hctl]
    rfl
  · rw [hout]
    rfl

/-- The drive mode derived again. -/
theorem updateDriveMode_pinsSound {s : State} (h : PinsShape s) (hpins : s.out.pins = shownPins s.out)
    (hconfig : s.ctl.state = .config → s.ctl.driveMode = .safe) : PinsSound (updateDriveMode s) := by
  by_cases hsame : s.ctl.driveMode = deriveMode s.ctl.state s.ctl.holds
  · rw [updateDriveMode_of_eq hsame, pinsSound_iff]
    exact ⟨h, hsame, hpins⟩
  · have hrun : Running s := fun hc => hsame (by rw [hc, deriveMode_config, hconfig hc])
    have hgive : updateDriveMode s = giveDriveMode (deriveMode s.ctl.state s.ctl.holds) s := if_neg (Ne.symm hsame)
    rw [hgive]
    exact giveDriveMode_pinsSound h.length h.point0 h.point1 hrun

/-- The drive mode derived again after a change of station state or hold reasons that leaves the other blocks. -/
theorem updateDriveMode_kept {s : State} (m : State) (hpts : m.pts = s.pts) (hout : m.out = s.out)
    (hmode : m.ctl.driveMode = s.ctl.driveMode) (hconfig : m.ctl.state = .config ↔ s.ctl.state = .config) :
    PinsKept s (updateDriveMode m) := by
  intro hs
  obtain ⟨hshape, hderived, hpins⟩ := (pinsSound_iff s).1 hs
  refine updateDriveMode_pinsSound (SameShape.shape ⟨by rw [hpts], by rw [hpts], by rw [hpts], by rw [hpts], hmode, hconfig,
    by rw [hout], by rw [hout]⟩ hshape) (by rw [hout, hpins]) fun hc => ?_
  rw [hmode, hderived, hconfig.1 hc, deriveMode_config]

namespace PinsKept

theorem post (k : EventKind) (a : Byte) (d : Word) (s : State) : PinsKept s (Machine.post k a d s) :=
  .of_ctl (by simp) (by simp) (by simp)

theorem postState (c : StateCause) (s : State) : PinsKept s (Machine.postState c s) := .of_ctl (by simp) (by simp) (by simp)

theorem setHolds (h : HoldReasons) (s : State) : PinsKept s (Machine.setHolds h s) := by
  by_cases hh : h = s.ctl.holds
  · rw [setHolds_of_eq hh]
    exact .refl s
  · rw [setHolds_of_ne hh]
    have hmode : PinsKept s (updateDriveMode (setCtl { s.ctl with holds := h } s)) :=
      updateDriveMode_kept _ rfl rfl rfl Iff.rfl
    exact hmode.trans (post _ _ _ _)

theorem updateMirror (g : Entry → Entry) (p : Entry → Bool) (s : State) : PinsKept s (Machine.updateMirror g p s) :=
  .of_ctl (by simp) (by simp) (by simp)

/-! ### Line events -/

theorem startSlot (k e : Nat) (p : Option SlotPicture) (s : State) : PinsKept s (Machine.startSlot k e p s) := by
  rw [startSlot_eq]
  exact .of_ctl rfl rfl rfl

theorem announceClose (s : State) : PinsKept s (Machine.announceClose s) := by
  rw [announceClose_eq]
  refine PinsKept.trans ?_ (setHolds _ _)
  exact .of_eq (by simp) (by simp) (by simp) (by simp) (by simp)

theorem endSlot (k e : Nat) (p : Option SlotPicture) (s : State) : PinsKept s (Machine.endSlot k e p s) := by
  unfold Machine.endSlot
  split
  · exact startSlot _ _ _ s
  · exact (announceClose s).trans (.of_ctl rfl rfl rfl)

theorem endCurrentSlot (e : Nat) (s : State) : PinsKept s (Machine.endCurrentSlot e s) := by
  unfold Machine.endCurrentSlot
  split
  · exact endSlot _ _ _ s
  · exact .refl s

theorem enterFault (f : FaultCause) (c : StateCause) {s : State} (hr : Running s) : PinsKept s (Machine.enterFault f c s) := by
  rw [enterFault_eq]
  refine PinsKept.trans (updateDriveMode_kept (faultEntering f s) (by simp) (by simp) (by simp) ?_) (postState _ _)
  simp only [faultEntering_frame, reduceCtorEq, false_iff]
  exact hr

theorem syncLoss (c : StateCause) (n : Nat) {s : State} (hr : Running s) : PinsKept s (Machine.syncLoss c n s) := by
  rw [syncLoss_eq]
  refine PinsKept.trans (updateDriveMode_kept (lossListening n s) (by simp) (by simp) (by simp) ?_) (postState _ _)
  simp only [lossListening_frame, reduceCtorEq, false_iff]
  exact hr

theorem join (r : Byte) {s : State} (hr : Running s) : PinsKept s (Machine.join r s) := by
  have hentered : PinsKept s (updateDriveMode (joinEntered r s)) :=
    updateDriveMode_kept (joinEntered r s) rfl rfl rfl ⟨fun h => by simp [joinEntered] at h, fun h => absurd h hr⟩
  rw [join_eq]
  exact (hentered.trans (postState _ _)).trans (startSlot _ _ _ _)

theorem coldStarted {s : State} (hr : Running s) : PinsKept s (Machine.coldStarted s) := by
  have hentered : PinsKept s (updateDriveMode (controlForSynced s)) :=
    updateDriveMode_kept (controlForSynced s) rfl rfl rfl ⟨fun h => by simp at h, fun h => absurd h hr⟩
  rw [coldStarted_eq]
  exact (hentered.trans (postState _ _)).to_end rfl rfl rfl

theorem duplicateAddress (s : State) : PinsKept s (Machine.duplicateAddress s) := by
  unfold Machine.duplicateAddress
  split
  · rename_i h
    exact enterFault _ _ (by rcases h with h | h <;> simp [Running, h])
  · exact .refl s

theorem driverFaulted (s : State) : PinsKept s (Machine.driverFaulted s) := by
  unfold Machine.driverFaulted
  split
  · rename_i h
    exact enterFault _ _ (by rcases h with h | h <;> simp [Running, h])
  · exact .refl s

theorem foreignReached {s : State} (hr : Running s) : PinsKept s (Machine.foreignReached s) := by
  unfold Machine.foreignReached
  split
  · exact enterFault _ _ hr
  · exact .refl s

theorem loadColdStart (e : Nat) (s : State) : PinsKept s (Machine.loadColdStart e s) := .of_ctl (by simp) (by simp) (by simp)

theorem deliver (f : SlotFrame) (s : State) : PinsKept s (Machine.deliver f s) := by
  have hquery (u : State) : PinsKept u (deliverQuery f u) := by
    unfold deliverQuery
    (repeat' split) <;> exact .of_ctl (by simp) (by simp) (by simp)
  have hanswer (u : State) : PinsKept u (deliverAnswer f u) := by
    unfold deliverAnswer
    (repeat' split) <;> exact .of_ctl (by simp) (by simp) (by simp)
  have hheard (u : State) : PinsKept u (heardPeer u) :=
    (PinsKept.of_eq (t := setCtl { u.ctl with heard := true, loneCounter := 0 } u) rfl rfl rfl rfl rfl).trans (setHolds _ _)
  unfold Machine.deliver
  exact (((updateMirror _ _ s).trans (hheard _)).trans (hquery _)).trans (hanswer _)

theorem slotCheck (k : Nat) (f : SlotFrame) {s : State} (hr : Running s) : PinsKept s (Machine.slotCheck k f s) := by
  unfold Machine.slotCheck
  dsimp only
  split
  · exact duplicateAddress s
  split
  · exact (endSlot _ _ _ (countMismatch s)).of_start rfl rfl rfl
  split
  · exact syncLoss _ _ hr
  split
  · exact (endSlot _ _ _ (countMismatch s)).of_start rfl rfl rfl
  split
  · refine PinsKept.trans ?_ (endSlot _ _ _ _)
    exact (deliver f _).of_start rfl rfl rfl
  · exact (deliver f s).trans (endSlot _ _ _ _)

theorem openInSynced (f : OpenFrame) {s : State} (hr : Running s) : PinsKept s (Machine.openInSynced f s) := by
  unfold Machine.openInSynced
  split
  · split
    · refine PinsKept.trans ?_ (startSlot _ _ _ _)
      exact (announceClose s).to_end rfl rfl rfl
    · exact (startSlot _ _ _ _).of_start rfl rfl rfl
  · exact (syncLoss .foreign 1 (s := countForeign s) hr).of_start rfl rfl rfl

theorem slotInSynced (f : SlotFrame) {s : State} (hr : Running s) : PinsKept s (Machine.slotInSynced f s) := by
  unfold Machine.slotInSynced
  split
  · exact slotCheck _ f hr
  · split
    · exact duplicateAddress s
    · exact .of_ctl rfl rfl rfl

theorem invalidInSynced (e : Nat) (p : Option SlotPicture) (s : State) : PinsKept s (Machine.invalidInSynced e p s) := by
  unfold Machine.invalidInSynced
  split
  · exact endSlot _ _ _ s
  · exact .of_ctl rfl rfl rfl

theorem frameInListen (f : Frame) {s : State} (hr : Running s) : PinsKept s (Machine.frameInListen f s) := by
  unfold Machine.frameInListen
  split
  · split
    · exact join _ hr
    · refine PinsKept.trans ?_ (foreignReached (by simpa [Running, countForeign] using hr))
      exact .of_ctl (by simp [countForeign]) (by simp [countForeign]) (by simp [countForeign])
  · split
    · exact duplicateAddress s
    · exact loadColdStart _ s

theorem frameInFault (f : Frame) (s : State) : PinsKept s (Machine.frameInFault f s) := by
  unfold Machine.frameInFault
  (repeat' split) <;> exact .of_ctl rfl rfl rfl

theorem actOnReception (f : Option Frame) (e : Nat) (p : Option SlotPicture) (s : State) :
    PinsKept s (Machine.actOnReception f e p s) := by
  unfold Machine.actOnReception
  split
  · exact .refl s
  · rename_i h
    split
    · exact frameInListen _ (by simp [Running, h])
    · exact loadColdStart _ s
  · rename_i h
    split
    · exact openInSynced _ (by simp [Running, h])
    · exact slotInSynced _ (by simp [Running, h])
    · exact invalidInSynced _ _ s
  · split
    · exact frameInFault _ s
    · exact .refl s

theorem reportDuplicate (s : State) : PinsKept s (Machine.reportDuplicate s) := by
  unfold Machine.reportDuplicate
  split
  · exact .refl s
  · split
    · exact .of_ctl rfl rfl rfl
    · exact duplicateAddress s

theorem reportDriver (s : State) : PinsKept s (Machine.reportDriver s) := by
  unfold Machine.reportDriver
  split
  · exact .refl s
  · split
    · exact .of_ctl rfl rfl rfl
    · exact driverFaulted s

theorem collidedEnd (k : FrameKind) (s : State) : PinsKept s (Machine.collidedEnd k s) := by
  unfold Machine.collidedEnd
  split
  · split
    · exact endCurrentSlot _ s
    · exact .of_ctl rfl rfl rfl
  · exact loadColdStart _ s

theorem loneReached (s : State) : PinsKept s (Machine.loneReached s) := by
  unfold Machine.loneReached
  split
  · exact setHolds _ s
  · exact .refl s

/-- What a line event may do when it is taken: its own effect, or nothing. -/
theorem ite {s a : State} {p : Prop} [Decidable p] (h : p → PinsKept s a) : PinsKept s (if p then a else s) := by
  split
  · exact h ‹_›
  · exact .refl s

end PinsKept

/-- A line event keeps pins and points in agreement: it derives the drive mode wherever state or hold reasons change (R40). -/
theorem lineEvent_pinsKept (c : Instr) (s t : State) (hc : lineEvent c = true) (h : exec c s = .next t) : PinsKept s t := by
  cases c <;> simp only [lineEvent, Bool.false_eq_true] at hc <;> simp only [exec] at h
  case receptionEnd chars =>
    unfold execReceptionEnd at h
    split at h
    · exact Host.Outcome.next.inj h ▸ .refl s
    · exact Host.Outcome.next.inj h ▸ (PinsKept.loadColdStart _ _).of_start rfl rfl rfl
    · rw [← Host.Outcome.next.inj h]
      split
      · exact .of_ctl rfl rfl rfl
      · exact (PinsKept.actOnReception _ _ _ _).of_start rfl rfl rfl
  all_goals rw [← Host.Outcome.next.inj h]
  case foreignLimit => exact .ite fun hs => PinsKept.foreignReached (by simp [Running, hs])
  case skipPoint => exact .ite fun _ => PinsKept.endCurrentSlot _ s
  case entryStale =>
    split
    · exact .refl s
    · exact .of_ctl (by simp) (by simp) (by simp)
  case queryTimeout => exact .ite fun _ => .of_ctl (by rw [takeTimeouts_only]) (by rw [takeTimeouts_only]) (by rw [takeTimeouts_only])
  case lone => exact .ite fun _ => PinsKept.loneReached s
  case transmissionStart => exact .ite fun _ => .of_ctl rfl rfl rfl
  case transmissionComplete =>
    split
    · exact (PinsKept.endCurrentSlot 0 (txDone (consumeItems s))).of_start (by simp [txDone]) (by simp [txDone])
        (by simp [txDone])
    · exact (PinsKept.startSlot _ _ _ _).of_start rfl rfl rfl
    · exact .refl s
  case collision =>
    split
    · exact (PinsKept.reportDuplicate _).of_start rfl rfl rfl
    · exact .refl s
  case collisionLimit => exact .ite fun _ => (PinsKept.duplicateAddress _).of_start rfl rfl rfl
  case driverError =>
    split
    · exact (PinsKept.reportDriver _).of_start rfl rfl rfl
    · exact (PinsKept.reportDriver _).of_start rfl rfl rfl
    · exact .refl s
  case driverFault => exact .ite fun _ => (PinsKept.driverFaulted _).of_start rfl rfl rfl
  case contentionTimeout => exact .ite fun _ => .of_ctl rfl rfl rfl
  case coldStart => exact .ite fun hs => PinsKept.coldStarted (by simp [Running, hs.1])
  case ageStepTimer => exact .ite fun _ => .of_eq (by simp) (by simp) (by simp) (by simp) (by simp)
  case startBit => (repeat' split) <;> exact .of_ctl rfl rfl rfl
  case collidedFrameEnd =>
    split
    · exact (PinsKept.collidedEnd _ _).of_start rfl rfl rfl
    · exact .refl s

/-! ### Outputs, conditions and inputs -/

/-- A change of rule state, then the pins set anew (R105). -/
theorem setPins_kept {s m : State} (hm : PinsShape s → PinsShape m) (hmode : m.ctl = s.ctl) : PinsKept s (setPins m) := by
  intro hs
  obtain ⟨hshape, hderived, -⟩ := (pinsSound_iff s).1 hs
  exact setPins_pinsSound (hm hshape) (by rw [hmode, hderived])

theorem setOut_shape {s : State} {o : OutUnit} (hmode : o.mode = s.out.mode) (hpins : o.pins = s.out.pins) (h : PinsShape s) :
    PinsShape (setOut o s) := SameShape.shape (s := s) ⟨rfl, rfl, rfl, rfl, rfl, Iff.rfl, hmode, hpins⟩ h

theorem expirePulse_pinsKept (i : Nat) (s : State) : PinsKept s (expirePulse i s) := by
  unfold expirePulse
  split
  · exact setPins_kept (fun h => setOut_shape rfl rfl h) rfl
  · exact .refl s

/-- A confirmed change writes point 2's value, acts on the lines and sets the pins (R96, R105). -/
theorem confirm_pinsKept (k : Nat) (d : Condition) (b e : Bool) (s : State) : PinsKept s (confirm k d b e s) := by
  rw [confirm_eq]
  obtain ⟨hctl, hpins, -, hpts⟩ := confirmActed_frame k d b e s
  have hmode : (confirmActed k d b e s).out.mode = s.out.mode := by simp [confirmActed]
  generalize confirmActed k d b e s = m at hctl hpins hpts hmode ⊢
  refine setPins_kept (fun h => ?_) hctl
  have hother {j : Nat} (hj : j ≠ 2) : pointAt m j = pointAt s j := pointAt_set_two (by rw [hpts]) hj
  refine ⟨by simpa [hpts] using h.length, by rw [hpts, hctl]; exact h.given, by rw [hmode, hctl]; exact h.mode, ?_, ?_, ?_⟩
  · rw [hother (by omega), h.point0, hpts]
  · rw [hother (by omega), h.point1, hpins]
  · have hpoint2 : pointAt m 2 = ⟨putBit (pointAt s 2).value k b, (pointAt s 2).quality⟩ := by
      simp [pointAt, hpts, h.length]
    rw [hpoint2, hctl]
    exact h.point2

theorem evaluate_pinsKept (k : Nat) (d : Condition) (s : State) : PinsKept s (evaluate k d s).1 := by
  have hconfirmed := confirm_pinsKept k d (rawResult s k d) false (storeResult k (rawResult s k d) (allKnown s d) s)
  simp only [evaluate]
  rcases confirmation_cases k d (rawResult s k d) (storeResult k (rawResult s k d) (allKnown s d) s) with hc | hc | hc | hc <;>
    rw [hc.1]
  · exact .of_ctl rfl rfl rfl
  · exact .of_ctl rfl rfl rfl
  · exact .of_ctl rfl rfl rfl
  · generalize confirm k d (rawResult s k d) false (storeResult k (rawResult s k d) (allKnown s d) s) = t at hconfirmed ⊢
    exact hconfirmed.of_start rfl rfl rfl

theorem pass_pinsSound (m : Word) {s : State} (h : PinsSound s) : PinsSound (pass m s) :=
  pass_keeps (fun k d u _ _ hu => evaluate_pinsKept k d u hu) m s h

theorem takeNotice_pinsSound {s : State} (h : PinsSound s) : PinsSound (takeNotice s) := by
  unfold takeNotice
  split
  · exact h
  · split
    · exact h
    · exact pass_pinsSound _ h

theorem expireConfirm_pinsKept (k : Nat) (s : State) : PinsKept s (expireConfirm k s) := by
  unfold expireConfirm
  split
  · rename_i b n d _ _
    have hconfirmed := confirm_pinsKept k d b true (setConfirmTimer k .idle s)
    generalize confirm k d b true (setConfirmTimer k .idle s) = t at hconfirmed ⊢
    exact (hconfirmed.of_start rfl rfl rfl).trans (.of_ctl (by simp) (by simp) (by simp))
  · exact .refl s

/-- Point 0 formed again agrees with the inputs, whatever it showed (R46). -/
theorem formPoint0_pinsSound {s m : State} (hs : PinsSound s) (hpoints : m.pts.points = s.pts.points)
    (hgiven : m.pts.driveMode = s.pts.driveMode) (hout : m.out = s.out) (hctl : m.ctl = s.ctl) :
    PinsSound (formPoint0 m) := by
  obtain ⟨hshape, hderived, hpins⟩ := (pinsSound_iff s).1 hs
  have hlength : m.pts.points.length = 8 := by rw [hpoints, hshape.length]
  have hpoint (j : Nat) : pointAt (formPoint0 m) j =
      if j = 0 then ⟨m.pts.filtered ^^^ m.pts.invert, .good⟩ else pointAt s j := by
    rw [formPoint0, pointAt_changePoint _ _ _ _ _ (by omega), pointAt_congr hpoints]
  rw [pinsSound_iff]
  refine ⟨⟨by simpa using hlength, ?_, ?_, ?_, ?_, ?_⟩, by simpa [hctl] using hderived, by simpa [hout] using hpins⟩
  · simpa [hgiven, hctl] using hshape.given
  · simpa [hout, hctl] using hshape.mode
  · rw [hpoint]
    simp
  · rw [hpoint]
    simpa [hout] using hshape.point1
  · rw [hpoint]
    simpa [hctl] using hshape.point2

/-- A host point changes without touching points 0 to 2 (R52). -/
theorem changePoint_pinsKept {i : Nat} (p : Point) (n : Notice) (s : State) (h3 : 3 ≤ i) (h7 : i ≤ 7) :
    PinsKept s (changePoint i p n s) := by
  intro hs
  obtain ⟨hshape, hderived, hpins⟩ := (pinsSound_iff s).1 hs
  have hpoint {j : Nat} (hj : j < 3) : pointAt (changePoint i p n s) j = pointAt s j := by
    rw [pointAt_changePoint _ _ _ _ _ (by have := hshape.length; omega), if_neg (by omega)]
  rw [pinsSound_iff]
  refine ⟨⟨by simpa using hshape.length, by simpa using hshape.given, by simpa using hshape.mode, ?_, ?_, ?_⟩,
    by simpa using hderived, by simpa using hpins⟩
  · rw [hpoint (by omega)]
    simpa using hshape.point0
  · rw [hpoint (by omega)]
    simpa using hshape.point1
  · rw [hpoint (by omega)]
    simpa using hshape.point2

theorem inputChanged_pinsSound (i : Nat) (b : Bool) {s m : State} (hs : PinsSound s)
    (hm : m = setPts { s.pts with raw := m.pts.raw } s) : PinsSound (inputChanged i b m) := by
  have hkept {u : State} {f : List Timer} (hu : u = setPts { m.pts with filterTimers := f } m) : PinsSound u := by
    rw [hu, hm]
    exact hs
  unfold inputChanged
  split
  · exact hkept rfl
  split
  · exact hkept rfl
  split
  · rw [hm]
    exact formPoint0_pinsSound hs rfl rfl rfl rfl
  · exact hkept rfl

/-! ### The changes of station state by the host -/

theorem restartNow_pinsKept {s : State} (hr : Running s) : PinsKept s (restartNow s) := by
  have hlistening : PinsKept s (updateDriveMode (restartListening s)) :=
    updateDriveMode_kept _ (by simp) (by simp) (by simp) ⟨fun h => by simp at h, fun h => absurd h hr⟩
  rw [restartNow_eq]
  split
  · exact (hlistening.trans (PinsKept.postState _ _)).trans (PinsKept.post _ _ _ _)
  · exact hlistening.trans (PinsKept.postState _ _)

theorem reconfigureNow_pinsKept (s : State) : PinsKept s (reconfigureNow s) := by
  intro hs
  have hmade := reconfigureNow_reconfigured hs
  have hshape := ((pinsSound_iff s).1 hs).1
  generalize reconfigureNow s = t at hmade ⊢
  have hpoint0 : pointAt t 0 = pointAt s 0 := by
    unfold pointAt
    rw [hmade.pts]
    rfl
  rw [pinsSound_iff]
  refine ⟨⟨by rw [hmade.pts]; rfl, by rw [hmade.pts, hmade.ctl], by rw [hmade.out, hmade.ctl]; rfl, ?_, ?_, ?_⟩, ?_, ?_⟩
  · rw [hpoint0, hshape.point0, hmade.pts]
  · unfold pointAt
    rw [hmade.pts]
    rfl
  · unfold pointAt
    rw [hmade.pts, hmade.ctl]
    rfl
  · rw [hmade.ctl]
    rfl
  · rw [hmade.out]
    rfl

theorem commitStart_pinsSound {s : State} (h : PinsSound s) : PinsSound (commitStart s) := by
  obtain ⟨hshape, -, -⟩ := (pinsSound_iff s).1 h
  obtain ⟨hstate, hout, -, -⟩ := commitListening_frame s
  have hpoints := commitListening_points hshape.length
  have hderived : deriveMode (commitListening s).ctl.state (commitListening s).ctl.holds = .drive := by
    simp [commitListening, deriveMode]
  have hgiven := giveDriveMode_pinsSound (s := commitListening s) (by rw [hpoints]; rfl) ?_ ?_ (by simp [Running, hstate])
  · rw [hderived] at hgiven
    rw [commitStart_eq]
    exact PinsKept.postState .commit _ hgiven
  · unfold pointAt
    rw [hpoints]
    simp [commitListening]
  · have hpoint1 : pointAt (commitListening s) 1 = pointAt s 1 := by
      unfold pointAt
      rw [hpoints]
      rfl
    rw [hpoint1, hshape.point1, hout]
    rfl

/-! ### Every step -/

theorem makeHeld_pinsKept (c : HeldCommand) {s : State} (hr : Running s) : PinsKept s (makeHeld c s) := by
  cases c
  · exact restartNow_pinsKept hr
  · exact reconfigureNow_pinsKept s

theorem bodyEffect_pinsKept {s t : State} (h : BodyEffect s t) : PinsKept s t := by
  cases h
  case commit =>
    rw [commitNow_eq]
    exact fun hs => pass_pinsSound _ (commitStart_pinsSound hs)
  case made c hr _ => exact makeHeld_pinsKept c hr
  case holds b _ => exact PinsKept.setHolds _ s
  case point i p _ h3 h7 => exact changePoint_pinsKept p _ s h3 h7
  case outputs => exact setPins_kept (fun h => setOut_shape rfl rfl h) rfl
  case unlatch => exact setPins_kept (fun h => setOut_shape rfl rfl h) rfl
  case setRule => exact fun hs => hs
  case station => exact .of_eq rfl rfl rfl rfl rfl
  case held => exact .of_eq rfl rfl rfl rfl rfl
  case served => exact .of_ctl (by simp [issueQuery]) (by simp [issueQuery]) (by simp [issueQuery])
  all_goals exact .of_ctl rfl rfl rfl

theorem tick_pinsKept (s : State) : PinsKept s (tick s) := by
  unfold tick
  dsimp only
  split <;> exact fun hs => hs

theorem ownEvent_pinsKept {c : Instr} {s t : State} (hc : hostAct c = false) (he : exec c s = .next t) : PinsKept s t := by
  refine ownEvent_keeps (fun c u v hl hv hu => lineEvent_pinsKept c u v hl hv hu) (fun i b u v hv hu => ?input)
    (fun m u v hv hu => ?filter) (fun u hu => takeNotice_pinsSound hu) (fun k u _ hu => expireConfirm_pinsKept k u hu)
    (fun i u _ hu => expirePulse_pinsKept i u hu) hc he
  case input =>
    rw [← Host.Outcome.next.inj hv]
    split
    · exact hu
    · exact inputChanged_pinsSound _ _ hu rfl
  case filter =>
    rw [← Host.Outcome.next.inj hv]
    refine formPoint0_pinsSound hu ?_ ?_ rfl rfl
    · rw [setPts_pts, (expireFilters_frame _ _ _).2]
    · rw [setPts_pts, (expireFilters_frame _ _ _).2]

end Sys2Proof.Machine

/-! PROOF. The line unit with the station state along the line's events (R7, R16, R21, R29, R32, R54). -/

namespace Sys2Proof.Machine

/-! ### The line unit in agreement with the station state -/

/-- The part of `StationSound` that speaks of the line unit, the fault cause and the hold reasons. -/
structure LineCore (s : State) : Prop where
  phase : PhaseSound s
  fault : s.ctl.faultCause ≠ .none ↔ s.ctl.state = .fault
  slot : ∀ k, s.line.slot = some k → s.ctl.state = .synced ∧ k < s.slots
  slots : s.line.phase = .slots → s.line.slot ≠ none
  sending : txSending s = true →
    s.ctl.state = .synced ∧ s.line.rx = .idle ∧ s.line.dupReport = false ∧ s.line.driverReport = false
  pictures : s.line.pictures ≠ [] ↔ s.line.phase = .slots ∧ s.line.rx = .receiving
  collided : ∀ kind, s.line.tx = .collided kind → s.line.rx ≠ .receiving
  holds : s.ctl.state = .config → s.ctl.holds = HoldReasons.empty

/-- The part of `StationSound` that speaks of the settings. -/
structure SettingsCore (c : Controller) : Prop where
  edited : c.editedSet = true → settingsInRange c.edited = true
  committed : ∀ x, c.committed = some x → SettingsRun x
  run : c.state ≠ .config → c.committed = some c.edited ∧ c.editedSet = true

theorem stationSound_iff (s : State) : StationSound s ↔
    LineCore s ∧ SettingsCore s.ctl ∧ (s.ctl.held ≠ none → s.ctl.state ≠ .config ∧ s.port.phase = .executing) := by
  constructor
  · rintro ⟨hphase, hfault, hedited, hcommitted, hrun, hslot, hslots, hsending, hpictures, hcollided, hholds, hheld⟩
    exact ⟨⟨hphase, hfault, hslot, hslots, hsending, hpictures, hcollided, hholds⟩, ⟨hedited, hcommitted, hrun⟩, hheld⟩
  · rintro ⟨⟨hphase, hfault, hslot, hslots, hsending, hpictures, hcollided, hholds⟩, ⟨hedited, hcommitted, hrun⟩, hheld⟩
    exact ⟨hphase, hfault, hedited, hcommitted, hrun, hslot, hslots, hsending, hpictures, hcollided, hholds, hheld⟩

/-- The fields of the line unit that `LineCore` depends on. -/
def lineView (l : LineUnit) : LinePhase × Option Nat × TxState × RxState × List SlotPicture × Bool × Bool :=
  (l.phase, l.slot, l.tx, l.rx, l.pictures, l.dupReport, l.driverReport)

theorem LineCore.congr {s t : State} (h : LineCore s) (hline : lineView t.line = lineView s.line)
    (hstate : t.ctl.state = s.ctl.state) (hfault : t.ctl.faultCause = s.ctl.faultCause)
    (hcommitted : t.ctl.committed = s.ctl.committed) (hholds : s.ctl.state = .config → t.ctl.holds = s.ctl.holds) :
    LineCore t := by
  simp only [lineView, Prod.mk.injEq] at hline
  obtain ⟨hphase, hslot, htx, hrx, hpictures, hdup, hdriver⟩ := hline
  have hslots : t.slots = s.slots := by simp only [State.slots, settings_congr hcommitted]
  have hsending : txSending t = txSending s := by simp only [txSending, htx]
  constructor
  case phase =>
    have hp := h.phase
    unfold PhaseSound at hp ⊢
    rwa [hstate, hphase]
  case fault => rw [hfault, hstate, h.fault]
  case slot => rw [hslot, hstate, hslots]; exact h.slot
  case slots => rw [hphase, hslot]; exact h.slots
  case sending => rw [hsending, hstate, hrx, hdup, hdriver]; exact h.sending
  case pictures => rw [hpictures, hphase, hrx]; exact h.pictures
  case collided => rw [htx, hrx]; exact h.collided
  case holds =>
    intro hc
    rw [hstate] at hc
    rw [hholds hc, h.holds hc]

/-- A step that leaves the controller. -/
theorem LineCore.of_ctl {s t : State} (h : LineCore s) (hline : lineView t.line = lineView s.line) (hctl : t.ctl = s.ctl) :
    LineCore t := h.congr hline (by rw [hctl]) (by rw [hctl]) (by rw [hctl]) fun _ => by rw [hctl]

theorem LineCore.no_pictures {s : State} (h : LineCore s) (hrx : s.line.rx ≠ .receiving) : s.line.pictures = [] := by
  by_contra hne
  exact hrx (h.pictures.1 hne).2

theorem LineCore.fault_of_synced {s : State} (h : LineCore s) (hs : s.ctl.state = .synced) : s.ctl.faultCause = .none := by
  by_contra hne
  have hf := h.fault.1 hne
  rw [hs] at hf
  simp at hf

/-- Nothing of the station's own is on the line and nothing is received. -/
structure Quiet (s : State) : Prop where
  rx : s.line.rx ≠ .receiving
  tx : txSending s = false

/-! ### Slots and the contention -/

theorem slotLine_kept (k e : Nat) (p : Option SlotPicture) (s : State) (l : LineUnit) :
    (slotLine k e p s l).phase = .slots ∧ (slotLine k e p s l).slot = some k ∧ (slotLine k e p s l).rx = l.rx ∧
    (slotLine k e p s l).pictures = l.pictures ∧ ((slotLine k e p s l).tx = .gap ∨ (slotLine k e p s l).tx = l.tx) := by
  unfold slotLine
  dsimp only
  split
  · exact ⟨rfl, rfl, rfl, rfl, .inl rfl⟩
  · exact ⟨rfl, rfl, rfl, rfl, .inr rfl⟩

/-- SYNCED with no fault cause, nothing received and no pictures held. -/
structure Clear (s : State) : Prop where
  state : s.ctl.state = .synced
  fault : s.ctl.faultCause = .none
  rx : s.line.rx ≠ .receiving
  pictures : s.line.pictures = []

theorem LineCore.clear {s : State} (h : LineCore s) (hs : s.ctl.state = .synced) (hrx : s.line.rx ≠ .receiving) : Clear s :=
  ⟨hs, h.fault_of_synced hs, hrx, h.no_pictures hrx⟩

/-- A slot started while SYNCED, whatever phase the line unit was in (R7). -/
theorem Clear.startSlot {k : Nat} (e : Nat) (p : Option SlotPicture) {s : State} (h : Clear s) (htx : txSending s = false)
    (hk : k < s.slots) : LineCore (startSlot k e p s) := by
  rw [startSlot_eq]
  obtain ⟨hphase, hslot, hrx, hpictures, hkept⟩ := slotLine_kept k e p s s.line
  have hsending : txSending { s with line := slotLine k e p s s.line } = false := by
    rcases hkept with hx | hx
    · simp [txSending, hx]
    · simpa [txSending, hx] using htx
  constructor
  case phase => simp only [PhaseSound, h.state]; exact .inl hphase
  case fault => simp [h.fault, h.state]
  case slot =>
    intro j hj
    rw [hslot, Option.some.injEq] at hj
    exact ⟨h.state, hj ▸ hk⟩
  case slots => intro _; rw [hslot]; simp
  case sending => intro hsend; rw [hsending] at hsend; simp at hsend
  case pictures => simp [hpictures, h.pictures, hrx, h.rx]
  case collided => intro kind _; rw [hrx]; exact h.rx
  case holds => intro hc; simp [h.state] at hc

/-- An own OPEN begun while SYNCED with the line free (R12). -/
theorem Clear.beginOpen {s : State} (h : Clear s) (hb : mayBegin s = true) : LineCore (beginOpen s) := by
  simp only [mayBegin, Bool.and_eq_true, Bool.not_eq_true', decide_eq_true_eq] at hb
  obtain ⟨⟨⟨hrx, -⟩, hdup⟩, hdriver⟩ := hb
  constructor
  case phase => simp [PhaseSound, h.state]
  case fault => simp [h.fault, h.state]
  case slot => intro k hk; simp at hk
  case slots => intro hp; simp at hp
  case sending => exact fun _ => ⟨h.state, hrx, hdup, hdriver⟩
  case pictures => simp [h.pictures]
  case collided => intro kind hkind; simp at hkind
  case holds => intro hc; simp [h.state] at hc

theorem startSlot_core {k : Nat} (e : Nat) (p : Option SlotPicture) {s : State} (h : LineCore s) (hs : s.ctl.state = .synced)
    (hq : Quiet s) (hk : k < s.slots) : LineCore (startSlot k e p s) := (h.clear hs hq.rx).startSlot e p hq.tx hk

theorem loadContention_core (e : Nat) {s : State} (h : LineCore s) (hs : s.ctl.state = .synced) (hrx : s.line.rx ≠ .receiving) :
    LineCore (loadContention e s) where
  phase := by simp [PhaseSound, hs]
  fault := h.fault
  slot k hk := by simp at hk
  slots hp := by simp at hp
  sending := h.sending
  pictures := by simp [h.no_pictures hrx]
  collided := h.collided
  holds := h.holds

theorem announceClose_core {s : State} (h : LineCore s) (hs : s.ctl.state = .synced) : LineCore (announceClose s) := by
  have hctl := (announceClose_closed s).ctl
  exact h.congr (by simp) (by rw [hctl]) (by rw [hctl]) (by rw [hctl]) fun hc => by rw [hs] at hc; simp at hc

theorem endSlot_core (k e : Nat) (p : Option SlotPicture) {s : State} (h : LineCore s) (hs : s.ctl.state = .synced)
    (hq : Quiet s) : LineCore (endSlot k e p s) := by
  unfold endSlot
  split
  · exact startSlot_core e p h hs hq ‹_›
  · exact loadContention_core e (announceClose_core h hs) (by simpa using hs) (by simpa using hq.rx)

theorem endCurrentSlot_core (e : Nat) {s : State} (h : LineCore s) (hq : Quiet s) : LineCore (endCurrentSlot e s) := by
  unfold endCurrentSlot
  split
  · exact endSlot_core _ e none h (h.slot _ ‹_›).1 hq
  · exact h

/-! ### The changes of station state -/

theorem LineCore.no_pictures_of_ne {s : State} (h : LineCore s) (hs : s.ctl.state ≠ .synced) : s.line.pictures = [] := by
  by_contra hne
  cases hk : s.line.slot with
  | none => exact h.slots (h.pictures.1 hne).1 hk
  | some k => exact hs (h.slot k hk).1

/-- What leaving SYNCED keeps of the line unit. -/
theorem lineAfterLeaving_kept {s : State} (h : LineCore s) : (lineAfterLeaving s).rx = s.line.rx ∧
    (lineAfterLeaving s).pictures = [] ∧ ((lineAfterLeaving s).tx = .idle ∨ (lineAfterLeaving s).tx = s.line.tx) := by
  unfold lineAfterLeaving
  split
  · dsimp only
    split
    · exact ⟨rfl, rfl, .inl rfl⟩
    · exact ⟨rfl, rfl, .inr rfl⟩
  · exact ⟨rfl, h.no_pictures_of_ne ‹_›, .inr rfl⟩

/-- The line unit watches in LISTEN and FAULT, with what leaving SYNCED has left (R21). -/
theorem watching_core {s t : State} (h : LineCore s) (htx : txSending s = false)
    (hstate : t.ctl.state = .listen ∧ t.ctl.faultCause = .none ∨ t.ctl.state = .fault ∧ t.ctl.faultCause ≠ .none)
    (hphase : t.line.phase = .watch) (hslot : t.line.slot = none) (hrx : t.line.rx = (lineAfterLeaving s).rx)
    (hpictures : t.line.pictures = (lineAfterLeaving s).pictures) (hkept : t.line.tx = (lineAfterLeaving s).tx) :
    LineCore t := by
  obtain ⟨hleftRx, hleftPictures, hleftTx⟩ := lineAfterLeaving_kept h
  rw [hleftRx] at hrx
  rw [hleftPictures] at hpictures
  rw [← hkept] at hleftTx
  have hsending : txSending t = false := by
    rcases hleftTx with hx | hx
    · simp [txSending, hx]
    · simpa [txSending, hx] using htx
  constructor
  case phase => rcases hstate with ⟨hs, -⟩ | ⟨hs, -⟩ <;> simpa [PhaseSound, hs] using hphase
  case fault =>
    rcases hstate with ⟨hs, hf⟩ | ⟨hs, hf⟩
    · simp [hs, hf]
    · simp [hs, hf]
  case slot => intro k hk; simp [hslot] at hk
  case slots => intro hp; simp [hphase] at hp
  case sending => intro hsend; simp [hsending] at hsend
  case pictures => simp [hpictures, hphase]
  case collided =>
    intro kind hkind
    rw [hrx]
    rcases hleftTx with hx | hx
    · simp [hx] at hkind
    · exact h.collided kind (hx ▸ hkind)
  case holds =>
    intro hc
    rcases hstate with ⟨hs, -⟩ | ⟨hs, -⟩ <;> simp [hs] at hc

theorem enterFault_core {f : FaultCause} (c : StateCause) {s : State} (h : LineCore s) (htx : txSending s = false)
    (hf : f ≠ .none) : LineCore (enterFault f c s) :=
  watching_core h htx (.inr ⟨by simp, by simpa using hf⟩) (by simp) (by simp) (by simp) (by simp) (by simp)

theorem syncLoss_core (c : StateCause) (n : Nat) {s : State} (h : LineCore s) (htx : txSending s = false)
    (hs : s.ctl.state = .synced) : LineCore (syncLoss c n s) := by
  have hline := leaveSynced_line_of_synced hs
  exact watching_core h htx (.inl ⟨by simp, by simp⟩) (by simp) (by simp) (by simp [hline]) (by simp [hline]) (by simp [hline])

theorem restartNow_core {s : State} (h : LineCore s) (htx : txSending s = false) : LineCore (restartNow s) :=
  watching_core h htx (.inl ⟨by simp, by simp⟩) (by simp) (by simp) (by simp) (by simp) (by simp)

theorem duplicateAddress_core {s : State} (h : LineCore s) (htx : txSending s = false) : LineCore (duplicateAddress s) := by
  unfold duplicateAddress
  split
  · exact enterFault_core _ h htx (by simp)
  · exact h

theorem driverFaulted_core {s : State} (h : LineCore s) (htx : txSending s = false) : LineCore (driverFaulted s) := by
  unfold driverFaulted
  split
  · exact enterFault_core _ h htx (by simp)
  · exact h

theorem foreignReached_core {s : State} (h : LineCore s) (htx : txSending s = false) : LineCore (foreignReached s) := by
  unfold foreignReached
  split
  · exact enterFault_core _ h htx (by simp)
  · exact h

/-- RECONFIGURE leaves the line unit off (R21, R36). -/
theorem reconfigureNow_core {s : State} (h : LineCore s) (htx : txSending s = false) : LineCore (reconfigureNow s) := by
  obtain ⟨-, hpictures, hleftTx⟩ := lineAfterLeaving_kept h
  have hline : (reconfigureNow s).line = lineOff (lineAfterLeaving s) := by simp
  have hctl : (reconfigureNow s).ctl = { s.ctl with
      state := .config, faultCause := .none, holds := HoldReasons.empty, loneCounter := 0, heard := false, ageTimer := none,
      driveMode := .safe } := by simp
  have hsending : txSending (reconfigureNow s) = false := by
    rcases hleftTx with hx | hx
    · simp [txSending, lineOff, hx]
    · simpa [txSending, hline, lineOff, hx] using htx
  constructor
  case phase => simp [PhaseSound, lineOff]
  case fault => simp
  case slot => intro k hk; simp [lineOff] at hk
  case slots => intro hp; simp [lineOff] at hp
  case sending => intro hsend; simp [hsending] at hsend
  case pictures => simp [lineOff, hpictures]
  case collided =>
    intro kind _
    rw [hline, lineOff]
    dsimp only
    split
    · simp
    · assumption
  case holds => intro _; rw [hctl]

theorem LineCore.fault_of_listen {s : State} (h : LineCore s) (hs : s.ctl.state = .listen) : s.ctl.faultCause = .none := by
  by_contra hne
  have hf := h.fault.1 hne
  simp [hs] at hf

theorem join_core {s : State} (r : Byte) (h : LineCore s) (hs : s.ctl.state = .listen) (hq : Quiet s) (hk : 0 < s.slots) :
    LineCore (join r s) := by
  rw [join_eq]
  have hentered : (postState .join (updateDriveMode (joinEntered r s))).line = { s.line with round := r } := by
    simp [joinEntered]
  have hcommitted : (postState .join (updateDriveMode (joinEntered r s))).ctl.committed = s.ctl.committed := by
    simp [joinEntered]
  refine Clear.startSlot 0 none ⟨by simp [joinEntered], by simpa [joinEntered] using h.fault_of_listen hs, ?_, ?_⟩ ?_ ?_
  · rw [hentered]
    exact hq.rx
  · rw [hentered]
    exact h.no_pictures hq.rx
  · have htx := hq.tx
    simp only [txSending] at htx ⊢
    rwa [hentered]
  · simpa only [State.slots, settings_congr hcommitted] using hk

theorem coldStarted_core {s : State} (h : LineCore s) (hs : s.ctl.state = .listen) (hb : mayBegin s = true) :
    LineCore (coldStarted s) := by
  have hrx : s.line.rx = .idle := by
    simp only [mayBegin, Bool.and_eq_true, decide_eq_true_eq] at hb
    exact hb.1.1.1
  have hentered : (postState .coldStart (updateDriveMode (controlForSynced s))).line = s.line := by simp
  rw [coldStarted_eq]
  refine Clear.beginOpen ⟨by simp, by simpa using h.fault_of_listen hs, ?_, ?_⟩ ?_
  · rw [hentered, hrx]
    simp
  · rw [hentered]
    exact h.no_pictures (by simp [hrx])
  · simpa [mayBegin] using hb

/-! ### Receptions -/

theorem deliver_line (f : SlotFrame) (s : State) : (deliver f s).line = s.line := by
  have hanswer := congrArg State.line (deliverAnswer_frame f (deliverQuery f (heardPeer (applyFrame f s))))
  have hquery := congrArg State.line (deliverQuery_frame f (heardPeer (applyFrame f s)))
  exact hanswer.trans (hquery.trans (frame_applied f s).rest.1)

theorem deliver_ctl (f : SlotFrame) (s : State) : (deliver f s).ctl = { s.ctl with
    heard := true, loneCounter := 0, holds := ⟨s.ctl.holds.host, false⟩, driveMode := (deliver f s).ctl.driveMode } := by
  have hanswer := congrArg State.ctl (deliverAnswer_frame f (deliverQuery f (heardPeer (applyFrame f s))))
  have hquery := congrArg State.ctl (deliverQuery_frame f (heardPeer (applyFrame f s)))
  have hctl : (deliver f s).ctl = (heardPeer (applyFrame f s)).ctl := hanswer.trans hquery
  rw [hctl]
  exact (frame_applied f s).ctl

theorem deliver_core (f : SlotFrame) {s : State} (h : LineCore s) (hs : s.ctl.state = .synced) : LineCore (deliver f s) := by
  have hctl := deliver_ctl f s
  refine h.congr (by rw [deliver_line]) (by rw [hctl]) (by rw [hctl]) (by rw [hctl]) fun hc => ?_
  rw [hs] at hc
  simp at hc

theorem Quiet.congr {s t : State} (h : Quiet s) (hrx : t.line.rx = s.line.rx) (htx : t.line.tx = s.line.tx) : Quiet t := by
  obtain ⟨hr, hx⟩ := h
  exact ⟨by rwa [hrx], by simpa only [txSending, htx] using hx⟩

/-- The expected slot moved to a later one of the round (R19). -/
theorem LineCore.move_slot {s : State} {j : Nat} (h : LineCore s) (hs : s.ctl.state = .synced) (hj : j < s.slots) :
    LineCore (setCounters { s.par.counters with slips := satInc s.par.counters.slips }
      (setLine { s.line with slot := some j } s)) where
  phase := h.phase
  fault := h.fault
  slot i hi := by
    rw [setCounters_line, setLine_line, Option.some.injEq] at hi
    exact ⟨hs, hi ▸ hj⟩
  slots _ := by simp
  sending := h.sending
  pictures := h.pictures
  collided := h.collided
  holds := h.holds

theorem slotCheck_core {k : Nat} (f : SlotFrame) {s : State} (h : LineCore s) (hs : s.ctl.state = .synced) (hq : Quiet s) :
    LineCore (slotCheck k f s) := by
  have hcounted : LineCore (countMismatch s) := h.of_ctl rfl rfl
  unfold slotCheck
  dsimp only
  split
  · exact duplicateAddress_core h hq.tx
  split
  · exact endSlot_core _ _ _ hcounted hs (hq.congr rfl rfl)
  split
  · exact syncLoss_core _ _ h hq.tx hs
  split
  · exact endSlot_core _ _ _ hcounted hs (hq.congr rfl rfl)
  split
  · rename_i hinside _ _ _
    refine endSlot_core _ _ _ (deliver_core f ?_ hs) (by simpa using hs) (hq.congr ?_ ?_)
    · exact h.move_slot hs (Nat.lt_of_not_le hinside)
    · rw [deliver_line]
      rfl
    · rw [deliver_line]
      rfl
  · exact endSlot_core _ _ _ (deliver_core f h hs) (by simpa using hs) (hq.congr (by rw [deliver_line]) (by rw [deliver_line]))

theorem openInSynced_core (f : OpenFrame) {s : State} (h : LineCore s) (hs : s.ctl.state = .synced) (hq : Quiet s)
    (hk : 0 < s.slots) : LineCore (openInSynced f s) := by
  unfold openInSynced
  split
  · split
    · have hclosed := announceClose_core h hs
      have hcommitted : (announceClose s).ctl.committed = s.ctl.committed := by rw [(announceClose_closed s).ctl]
      refine startSlot_core _ _ (s := setLine _ _) (hclosed.of_ctl rfl rfl) (by simpa using hs) ?_ ?_
      · exact hq.congr (by simp) (by simp)
      · have hslots : (announceClose s).slots = s.slots := by simp only [State.slots, settings_congr hcommitted]
        exact (show 0 < (announceClose s).slots from hslots.symm ▸ hk)
    · exact startSlot_core _ _ (s := setLine { s.line with round := f.round } s) (h.of_ctl rfl rfl) hs (hq.congr rfl rfl) hk
  · exact syncLoss_core _ _ (s := countForeign s) (h.of_ctl rfl rfl) hq.tx hs

theorem slotInSynced_core (f : SlotFrame) {s : State} (h : LineCore s) (hs : s.ctl.state = .synced) (hq : Quiet s) :
    LineCore (slotInSynced f s) := by
  unfold slotInSynced
  split
  · exact slotCheck_core f h hs hq
  · split
    · exact duplicateAddress_core h hq.tx
    · exact loadContention_core 0 (s := countMismatch s) (h.of_ctl rfl rfl) hs hq.rx

theorem invalidInSynced_core (e : Nat) (p : Option SlotPicture) {s : State} (h : LineCore s) (hs : s.ctl.state = .synced)
    (hq : Quiet s) : LineCore (invalidInSynced e p s) := by
  unfold invalidInSynced
  split
  · exact endSlot_core _ e p h hs hq
  · exact loadContention_core e h hs hq.rx

theorem loadColdStart_core (e : Nat) {s : State} (h : LineCore s) : LineCore (loadColdStart e s) :=
  h.of_ctl (by simp [lineView]) (by simp)

theorem frameInListen_core (f : Frame) {s : State} (h : LineCore s) (hs : s.ctl.state = .listen) (hq : Quiet s)
    (hk : 0 < s.slots) : LineCore (frameInListen f s) := by
  unfold frameInListen
  split
  · split
    · exact join_core _ h hs hq hk
    · refine foreignReached_core (loadColdStart_core 0 (s := countForeign _) (h.of_ctl rfl rfl)) ?_
      have htx := hq.tx
      simpa [txSending, countForeign] using htx
  · split
    · exact duplicateAddress_core h hq.tx
    · exact loadColdStart_core 0 h

theorem frameInFault_core (f : Frame) {s : State} (h : LineCore s) : LineCore (frameInFault f s) := by
  unfold frameInFault
  (repeat' split) <;> exact h.of_ctl rfl rfl

theorem actOnReception_core (f : Option Frame) (e : Nat) (p : Option SlotPicture) {s : State} (h : LineCore s) (hq : Quiet s)
    (hk : s.ctl.state ≠ .config → 0 < s.slots) : LineCore (actOnReception f e p s) := by
  unfold actOnReception
  split
  · exact h
  · rename_i hs
    split
    · exact frameInListen_core _ h hs hq (hk (by simp [hs]))
    · exact loadColdStart_core e h
  · rename_i hs
    split
    · exact openInSynced_core _ h hs hq (hk (by simp [hs]))
    · exact slotInSynced_core _ h hs hq
    · exact invalidInSynced_core e p h hs hq
  · split
    · exact frameInFault_core _ h
    · exact h

end Sys2Proof.Machine

/-! PROOF. The line unit in agreement with the station state along every line event (R7, R12, R15 to R18, R31, R54). -/

namespace Sys2Proof.Machine

theorem txSending_of {s : State} {kind : FrameKind} (h : s.line.tx = .sending kind) : txSending s = true := by
  simp [txSending, h]

theorem txSending_iff {s : State} : txSending s = true ↔ ∃ kind, s.line.tx = .sending kind := by
  unfold txSending
  split <;> simp_all

theorem not_txSending_of_idle {s : State} (h : s.line.tx = .idle) : txSending s = false := by simp [txSending, h]

/-- The transmitter at rest, in a gap or beside a collided activity, with the rest of the line unit as it was. -/
theorem LineCore.stopped {s : State} {l : LineUnit} (h : LineCore s) (hphase : l.phase = s.line.phase)
    (hslot : l.slot = s.line.slot) (hrx : l.rx = s.line.rx) (hpictures : l.pictures = s.line.pictures)
    (hstop : txSending (setLine l s) = false) (hcollided : ∀ kind, l.tx = .collided kind → s.line.rx ≠ .receiving) :
    LineCore (setLine l s) where
  phase := by
    have hp := h.phase
    unfold PhaseSound at hp ⊢
    rwa [setLine_line, hphase]
  fault := h.fault
  slot k hk := h.slot k (by rwa [setLine_line, hslot] at hk)
  slots hp := by
    rw [setLine_line, hslot]
    exact h.slots (by rwa [setLine_line, hphase] at hp)
  sending hsend := by rw [hstop] at hsend; simp at hsend
  pictures := by
    rw [setLine_line, hpictures, hphase, hrx]
    exact h.pictures
  collided kind hkind := by
    rw [setLine_line, hrx]
    exact hcollided kind hkind
  holds := h.holds

/-- While a report waits no own frame is on the line (log 7). -/
theorem LineCore.no_frame {s : State} (h : LineCore s) (hreport : s.line.dupReport = true ∨ s.line.driverReport = true) :
    txSending s = false := by
  rw [← Bool.not_eq_true]
  intro hsend
  obtain ⟨-, -, hdup, hdriver⟩ := h.sending hsend
  simp [hdup, hdriver] at hreport

/-! ### The end of an own frame -/

theorem reportDuplicate_core {s : State} (h : LineCore s) (htx : txSending s = false) : LineCore (reportDuplicate s) := by
  unfold reportDuplicate
  split
  · exact h
  · split
    · exact h.stopped rfl rfl rfl rfl htx fun kind hkind => h.collided kind hkind
    · exact duplicateAddress_core h htx

theorem reportDriver_core {s : State} (h : LineCore s) (htx : txSending s = false) : LineCore (reportDriver s) := by
  unfold reportDriver
  split
  · exact h
  · split
    · exact h.stopped rfl rfl rfl rfl htx fun kind hkind => h.collided kind hkind
    · exact driverFaulted_core h htx

theorem collision_core {kind : FrameKind} {s : State} (h : LineCore s) (htx : s.line.tx = .sending kind) :
    LineCore (reportDuplicate (setCounters { s.par.counters with collisions := satInc s.par.counters.collisions }
      (setLine (collidedLine kind s.line) s))) := by
  obtain ⟨-, hrx, -, -⟩ := h.sending (txSending_of htx)
  have hcollided : LineCore (setLine (collidedLine kind s.line) s) := h.stopped rfl rfl rfl rfl rfl fun _ _ => by simp [hrx]
  exact reportDuplicate_core (s := setCounters _ _) (hcollided.of_ctl rfl rfl) rfl

theorem driverErrorLine_core {kind : FrameKind} {s : State} (h : LineCore s) (htx : s.line.tx = .sending kind) :
    LineCore (setLine (driverErrorLine s.line) s) := by
  obtain ⟨-, hrx, -, -⟩ := h.sending (txSending_of htx)
  exact h.stopped rfl rfl rfl rfl rfl fun _ _ => by simp [hrx]

theorem txDone_core {kind : FrameKind} {s : State} (h : LineCore s) (htx : s.line.tx = .sending kind) : LineCore (txDone s) := by
  obtain ⟨-, hrx, -, -⟩ := h.sending (txSending_of htx)
  exact h.stopped rfl rfl rfl rfl rfl fun _ _ => by simp [hrx]

theorem txDone_quiet {s : State} (hrx : s.line.rx = .idle) : Quiet (txDone s) := ⟨by simp [txDone, clearTx, hrx], rfl⟩

theorem transmissionComplete_core {s t : State} (h : LineCore s) (hk : s.ctl.state ≠ .config → 0 < s.slots)
    (he : exec .transmissionComplete s = .next t) : LineCore t := by
  simp only [exec, execTransmissionComplete] at he
  rw [← Host.Outcome.next.inj he]
  split
  · rename_i htx
    obtain ⟨-, hrx, -, -⟩ := h.sending (txSending_of htx)
    have hconsumed : LineCore (consumeItems s) := h.of_ctl (by simp) (by simp)
    exact endCurrentSlot_core 0 (txDone_core hconsumed (by simpa using htx)) (txDone_quiet (by simpa using hrx))
  · rename_i htx
    obtain ⟨hs, hrx, -, -⟩ := h.sending (txSending_of htx)
    have hdone := txDone_core h htx
    exact startSlot_core 0 none (s := setLine _ (setCounters _ (txDone s))) (hdone.of_ctl rfl rfl) hs
      ((txDone_quiet hrx).congr rfl rfl) (hk (by simp [hs]))
  · exact h

theorem driverError_core {s t : State} (h : LineCore s) (he : exec .driverError s = .next t) : LineCore t := by
  simp only [exec, execDriverError] at he
  rw [← Host.Outcome.next.inj he]
  split
  · exact reportDriver_core (driverErrorLine_core h ‹_›) rfl
  · rename_i htx
    obtain ⟨hs, hrx, -, -⟩ := h.sending (txSending_of htx)
    refine reportDriver_core (loadContention_core 0 (driverErrorLine_core h htx) hs ?_) rfl
    simp [driverErrorLine, clearTx, hrx]
  · exact h

/-! ### Receptions and the end of an activity -/

/-- The receiver at rest, with its pictures let go (R54). -/
theorem LineCore.received {s : State} {l : LineUnit} (h : LineCore s) (hphase : l.phase = s.line.phase)
    (hslot : l.slot = s.line.slot) (htx : l.tx = s.line.tx) (hrx : l.rx = .idle) (hpictures : l.pictures = [])
    (hbusy : s.line.rx ≠ .idle) : LineCore (setLine l s) where
  phase := by
    have hp := h.phase
    unfold PhaseSound at hp ⊢
    rwa [setLine_line, hphase]
  fault := h.fault
  slot k hk := h.slot k (by rwa [setLine_line, hslot] at hk)
  slots hp := by
    rw [setLine_line, hslot]
    exact h.slots (by rwa [setLine_line, hphase] at hp)
  sending hsend := by
    simp only [txSending, setLine_line, htx] at hsend
    exact absurd (h.sending hsend).2.1 hbusy
  pictures := by simp [hpictures, hrx]
  collided kind _ := by simp [hrx]
  holds := h.holds

theorem LineCore.not_sending_of_busy {s : State} (h : LineCore s) (hbusy : s.line.rx ≠ .idle) : txSending s = false := by
  rw [← Bool.not_eq_true]
  intro hsend
  obtain ⟨-, hrx, -, -⟩ := h.sending hsend
  exact hbusy hrx

theorem receptionEnd_core (chars : List RxChar) {s t : State} (h : LineCore s) (hk : s.ctl.state ≠ .config → 0 < s.slots)
    (he : exec (.receptionEnd chars) s = .next t) : LineCore t := by
  cases hrx : s.line.rx with
  | idle =>
    rw [exec_receptionEnd_idle hrx] at he
    exact Host.Outcome.next.inj he ▸ h
  | ignoring =>
    rw [exec_receptionEnd_ignoring hrx] at he
    rw [← Host.Outcome.next.inj he]
    exact loadColdStart_core _ (h.received rfl rfl rfl rfl (h.no_pictures (by simp [hrx])) (by simp [hrx]))
  | receiving =>
    have hreceived : LineCore (received chars s) := h.received rfl rfl rfl rfl rfl (by simp [hrx])
    have hquiet : Quiet (received chars s) := ⟨by simp [received], h.not_sending_of_busy (by simp [hrx])⟩
    by_cases hs : s.ctl.state = .config
    · rw [exec_receptionEnd_config hrx hs] at he
      exact Host.Outcome.next.inj he ▸ hreceived
    · rw [exec_receptionEnd hrx hs] at he
      rw [← Host.Outcome.next.inj he]
      exact actOnReception_core _ _ _ (s := countReception _ _) (hreceived.of_ctl rfl rfl) (hquiet.congr rfl rfl) hk

theorem collidedEnd_core (kind : FrameKind) {s : State} (h : LineCore s) (hq : Quiet s) : LineCore (collidedEnd kind s) := by
  unfold collidedEnd
  split
  · split
    · exact endCurrentSlot_core _ h hq
    · exact loadContention_core _ h ‹_› hq.rx
  · exact loadColdStart_core _ h

/-- The activity that a start bit begins with the line unit off is followed, but not received (log 15). -/
theorem ignoring_core {s : State} (h : LineCore s) (hrx : s.line.rx = .idle) (htx : txSending s = false) :
    LineCore (setLine { s.line with rx := .ignoring } s) where
  phase := h.phase
  fault := h.fault
  slot := h.slot
  slots := h.slots
  sending hsend := absurd hsend (by simpa [txSending] using htx)
  pictures := by simp [h.no_pictures (by simp [hrx])]
  collided := by simp
  holds := h.holds

/-- The reception that a start bit begins holds a picture exactly in a slot (R54; log 32). -/
theorem receiving_core {s : State} (h : LineCore s) : LineCore (setLine { (clearTx .idle s.line) with
    rx := .receiving, contention := none, coldStart := none, slotTimer := none
    pictures := if s.line.phase = .slots then [slotPicture s] else [] } s) where
  phase := h.phase
  fault := h.fault
  slot := h.slot
  slots := h.slots
  sending := by simp [txSending, clearTx]
  pictures := by simp [clearTx]
  collided := by simp [clearTx]
  holds := h.holds

theorem startBit_core {s t : State} (h : LineCore s) (he : exec .startBit s = .next t) : LineCore t := by
  simp only [exec, execStartBit] at he
  rw [← Host.Outcome.next.inj he]
  split
  · exact h
  · exact h
  · rename_i hrx hsending _
    split
    · exact ignoring_core h hrx (Bool.eq_false_iff.2 fun hsend => by
        obtain ⟨kind, hkind⟩ := txSending_iff.1 hsend
        exact hsending kind hkind)
    · exact receiving_core h
  · exact h

theorem loneReached_core {s : State} (h : LineCore s) (hs : s.ctl.state = .synced) : LineCore (loneReached s) := by
  unfold loneReached
  split
  · exact h.congr (by simp) (by simp) (by simp) (by simp) fun hc => by simp [hs] at hc
  · exact h

/-- The gathered SLOT frame begins: the line is free and no report waits (R15; log 7). -/
theorem transmissionStart_core {s : State} (h : LineCore s) (hs : s.ctl.state = .synced) (hb : mayBegin s = true) :
    LineCore (setLine { s.line with tx := .sending .slotFrame, gapTimer := none } s) := by
  obtain ⟨hrx, -, hdup, hdriver⟩ := (mayBegin_iff s).1 hb
  exact ⟨h.phase, h.fault, h.slot, h.slots, fun _ => ⟨hs, hrx, hdup, hdriver⟩, h.pictures, by simp, h.holds⟩

/-- Every line event keeps the line unit in agreement with the station state. -/
theorem lineEvent_core (c : Instr) {s t : State} (hc : lineEvent c = true) (he : exec c s = .next t) (h : LineCore s)
    (hk : s.ctl.state ≠ .config → 0 < s.slots) : LineCore t := by
  have hquiet (hrx : s.line.rx = .idle) (htx : s.line.tx = .idle) : Quiet s := ⟨by simp [hrx], not_txSending_of_idle htx⟩
  have hite {p : Prop} [Decidable p] {a : State} (ha : p → LineCore a) : LineCore (if p then a else s) := by
    split
    · exact ha ‹_›
    · exact h
  cases c <;> simp only [lineEvent, Bool.false_eq_true] at hc
  case receptionEnd chars => exact receptionEnd_core chars h hk he
  case transmissionComplete => exact transmissionComplete_core h hk he
  case driverError => exact driverError_core h he
  case startBit => exact startBit_core h he
  all_goals simp only [exec] at he; rw [← Host.Outcome.next.inj he]
  case foreignLimit =>
    refine hite fun hs => foreignReached_core h (Bool.eq_false_iff.2 fun hsend => ?_)
    obtain ⟨hsynced, -⟩ := h.sending hsend
    simp [hs] at hsynced
  case skipPoint => exact hite fun ⟨_, _, _, hrx, htx⟩ => endCurrentSlot_core 0 h (hquiet hrx htx)
  case entryStale =>
    split
    · exact h
    · exact h.of_ctl (by simp) (by simp)
  case queryTimeout => exact hite fun _ => h.of_ctl (by rw [takeTimeouts_only]) (by rw [takeTimeouts_only])
  case lone => exact hite fun hs => loneReached_core h hs
  case transmissionStart => exact hite fun ⟨hs, _, hb⟩ => transmissionStart_core h hs hb
  case collision =>
    split
    · exact collision_core h ‹_›
    · exact h
  case collisionLimit =>
    refine hite fun hreport => ?_
    have htx := h.no_frame (.inl hreport)
    exact duplicateAddress_core (h.stopped rfl rfl rfl rfl htx fun kind hkind => h.collided kind hkind) htx
  case driverFault =>
    refine hite fun hreport => ?_
    have htx := h.no_frame (.inr hreport)
    exact driverFaulted_core (h.stopped rfl rfl rfl rfl htx fun kind hkind => h.collided kind hkind) htx
  case contentionTimeout =>
    exact hite fun ⟨hs, _, _, _, hb⟩ => (h.clear hs (by simp [((mayBegin_iff s).1 hb).1])).beginOpen hb
  case coldStart => exact hite fun ⟨hs, _, _, hb⟩ => coldStarted_core h hs hb
  case ageStepTimer => exact hite fun _ => h.congr (by simp) (by simp) (by simp) (by simp) (by simp)
  case collidedFrameEnd =>
    split
    · rename_i kind htx
      have hrx := h.collided kind htx
      exact collidedEnd_core kind (h.stopped rfl rfl rfl rfl rfl (by simp)) ⟨hrx, rfl⟩
    · exact h

end Sys2Proof.Machine

/-! PROOF. The station as a whole along every step: what is left of the settings, the held command and the line unit by the host's
accesses, the events and the passing of time. -/

namespace Sys2Proof.Machine

/-! ### Settings -/

theorem SettingsCore.congr {c d : Controller} (h : SettingsCore c) (hedited : d.edited = c.edited)
    (hset : d.editedSet = c.editedSet) (hcommitted : d.committed = c.committed)
    (hrun : d.state ≠ .config → c.state ≠ .config) :
    SettingsCore d where
  edited := by rw [hedited, hset]; exact h.edited
  committed := by rw [hcommitted]; exact h.committed
  run hd := by rw [hedited, hset, hcommitted]; exact h.run (hrun hd)

/-- Outside CONFIG the round has a slot, the own one (R173). -/
theorem SettingsCore.slots_pos {s : State} (h : SettingsCore s.ctl) (hs : s.ctl.state ≠ .config) : 0 < s.slots := by
  obtain ⟨hcommitted, -⟩ := h.run hs
  obtain ⟨-, haddress⟩ := h.committed _ hcommitted
  simp only [State.slots, State.settings, hcommitted, Option.getD_some]
  omega

/-! ### The line unit, the station state and the settings together -/

/-- `StationSound` without its clause on the held command. -/
structure StationCore (s : State) : Prop where
  line : LineCore s
  settings : SettingsCore s.ctl

/-- A command is held only outside CONFIG, with the port in EXECUTING (R37). -/
def HeldSound (s : State) : Prop := s.ctl.held ≠ none → s.ctl.state ≠ .config ∧ s.port.phase = .executing

theorem stationSound_iff_core (s : State) : StationSound s ↔ StationCore s ∧ HeldSound s := by
  rw [stationSound_iff]
  exact ⟨fun ⟨hline, hsettings, hheld⟩ => ⟨⟨hline, hsettings⟩, hheld⟩,
    fun ⟨⟨hline, hsettings⟩, hheld⟩ => ⟨hline, hsettings, hheld⟩⟩

/-- A step that leaves line unit and controller. -/
theorem StationCore.of_eq {s t : State} (h : StationCore s) (hline : t.line = s.line) (hctl : t.ctl = s.ctl) : StationCore t :=
  ⟨h.line.of_ctl (by rw [hline]) hctl, by rw [hctl]; exact h.settings⟩

theorem HeldSound.congr {s t : State} (h : HeldSound s) (hheld : t.ctl.held = s.ctl.held)
    (hconfig : t.ctl.state = .config ↔ s.ctl.state = .config) (hport : t.port = s.port) : HeldSound t := by
  intro hne
  rw [hheld] at hne
  obtain ⟨hstate, hphase⟩ := h hne
  exact ⟨fun hc => hstate (hconfig.1 hc), by rw [hport, hphase]⟩

theorem heldSound_of_none {s : State} (h : s.ctl.held = none) : HeldSound s := fun hne => absurd h hne

theorem HeldSound.held_eq_none {s : State} (h : HeldSound s) (hphase : s.port.phase ≠ .executing) : s.ctl.held = none := by
  by_contra hne
  exact hphase (h hne).2

/-! ### Bodies -/

theorem makeHeld_core (c : HeldCommand) {s : State} (h : StationCore s) (hs : s.ctl.state ≠ .config)
    (htx : txSending s = false) : StationCore (makeHeld c s) := by
  have hsettings : SettingsCore (makeHeld c s).ctl := by
    refine h.settings.congr ?_ ?_ ?_ fun _ => hs <;> cases c <;> simp [makeHeld]
  cases c with
  | restart => exact ⟨restartNow_core h.line htx, hsettings⟩
  | reconfigure => exact ⟨reconfigureNow_core h.line htx, hsettings⟩

/-- What a consistent edited configuration says of the settings (R169, R170). -/
theorem settings_of_valid {s : State} (h : validate s = none) :
    s.ctl.editedSet = true ∧ s.ctl.edited.address.toNat < s.ctl.edited.slots.toNat := by
  have hset : ¬s.ctl.editedSet = false := fun hs => by simp [validate_noStation hs] at h
  refine ⟨by simpa using hset, Nat.lt_of_not_le fun ha => ?_⟩
  simp [validate_address hset ha] at h

theorem commitNow_core {s : State} (h : StationCore s) (hs : s.ctl.state = .config) (hvalid : validate s = none) :
    StationCore (commitNow s) := by
  obtain ⟨hset, haddress⟩ := settings_of_valid hvalid
  have hne : s.ctl.state ≠ .synced := by simp [hs]
  have hstay : lineAfterLeaving s = s.line := if_neg hne
  have htx : txSending s = false := Bool.eq_false_iff.2 fun hsend => hne (h.line.sending hsend).1
  refine ⟨watching_core h.line htx (.inl ⟨?state, ?fault⟩) ?phase ?slot ?rx ?pictures ?tx, ?edited, ?committed, ?run⟩
  all_goals simp only [commitNow_eq, hstay]
  case edited => simpa using h.settings.edited
  case committed =>
    intro x hx
    simp only [pass_frame, commitStart_frame, Option.some.injEq] at hx
    exact hx ▸ ⟨h.settings.edited hset, haddress⟩
  case run => simpa using hset
  all_goals simp

theorem bodyEffect_core {s t : State} (he : BodyEffect s t) (h : StationCore s) : StationCore t := by
  cases he
  case station c hs hc =>
    refine ⟨h.line.congr rfl rfl rfl rfl fun _ => rfl, fun _ => hc, h.settings.committed, fun hne => absurd hs hne⟩
  case commit hs hvalid => exact commitNow_core h hs hvalid
  case held c _ _ => exact ⟨h.line.congr rfl rfl rfl rfl fun _ => rfl, h.settings.congr rfl rfl rfl id⟩
  case made c hs htx => exact makeHeld_core c h hs htx
  case holds b hs =>
    exact ⟨h.line.congr (by simp) (by simp) (by simp) (by simp) fun hc => absurd hc hs,
      h.settings.congr (by simp) (by simp) (by simp) (by simp)⟩
  all_goals
    refine h.of_eq ?_ ?_ <;>
      simp [setPlace, setDef, setRule, storeWord, setCounters, writeHostLevels, clearLatched, issueQuery, setQueries]

/-! ### The host's accesses -/

/-- A command run where no command is held is answered, or is held outside CONFIG in EXECUTING. -/
theorem execute_heldSound (m : List Byte) (i : Instr) {s : State} (h : s.ctl.held = none) : HeldSound (execute m (bodyOf i) s) := by
  rcases body_answers i (beginExecution m s) with ⟨r, hr, -, hheld⟩ | ⟨c, heq, hs, -⟩
  · refine heldSound_of_none ?_
    have hend : execute m (bodyOf i) s = endExecution r (bodyOf i (beginExecution m s)).2 := by
      unfold execute
      generalize bodyOf i (beginExecution m s) = result at hr
      obtain ⟨reply, u⟩ := result
      dsimp only at hr
      rw [hr]
    rw [hend]
    exact hheld.trans h
  · rw [execute, heq]
    exact fun _ => ⟨hs, rfl⟩

theorem DataWritten.heldSound {b : Byte} {s t : State} (hw : DataWritten b s t) (h : HeldSound s) : HeldSound t := by
  cases hw
  case discarded => exact h
  case busy => exact h
  case code hphase => exact heldSound_of_none (h.held_eq_none (by simp [hphase]))
  case tooLong hphase => exact heldSound_of_none (h.held_eq_none (by simp [hphase]))
  case length hphase _ _ _ => exact heldSound_of_none (h.held_eq_none (by simp [hphase]))
  case operand hphase _ _ => exact heldSound_of_none (h.held_eq_none (by simp [hphase]))
  case ran hphase _ => exact execute_heldSound _ _ (h.held_eq_none (by simp [hphase]))

theorem dataRead_heldSound {s : State} (h : HeldSound s) : HeldSound (dataRead s) := by
  unfold dataRead
  split
  · have hnone := h.held_eq_none (by simp [*])
    dsimp only
    split <;> exact heldSound_of_none hnone
  · exact heldSound_of_none (h.held_eq_none (by simp [*]))
  · exact h
  · exact h

theorem portReset_heldSound {s : State} (h : HeldSound s) : HeldSound (portReset s) := by
  unfold portReset
  split
  · exact h
  · exact heldSound_of_none (h.held_eq_none (by simp [*]))
  · exact h
  · exact heldSound_of_none (h.held_eq_none (by simp [*]))

/-- A data read and a port reset change the port at most. -/
theorem dataRead_eq (s : State) : ∃ x, dataRead s = setPort x s := by
  unfold dataRead
  split
  · dsimp only
    split <;> exact ⟨_, rfl⟩
  all_goals exact ⟨_, rfl⟩

theorem portReset_eq (s : State) : ∃ x, portReset s = setPort x s := by
  unfold portReset
  split <;> exact ⟨_, rfl⟩

/-- The station is sound, and its pins are where those of `s` were. -/
def SoundWithPins (s u : State) : Prop := StationSound u ∧ (PinsSound s → PinsSound u)

theorem SoundWithPins.of_parts {s u t : State} (h : SoundWithPins s u) (hcore : StationCore t) (hheld : HeldSound t)
    (hpins : PinsKept u t) : SoundWithPins s t := ⟨(stationSound_iff_core t).2 ⟨hcore, hheld⟩, fun hs => hpins (h.2 hs)⟩

theorem hostAct_sound {c : Instr} {s t : State} (hc : hostAct c = true) (he : exec c s = .next t) (h : StationSound s) :
    SoundWithPins s t := by
  have hport : ∀ x u, StationCore u → StationCore (setPort x u) := fun _ _ hu => hu.of_eq rfl rfl
  have hbody : ∀ i u, StationCore u → StationCore (bodyOf i u).2 := fun i u => bodyEffect_core (body_effect i u)
  have hportPins (u : State) : ∀ x v, PinsKept u v → PinsKept u (setPort x v) := fun _ _ hv => hv.to_end rfl rfl rfl
  have hbodyPins (u : State) : ∀ i v, PinsKept u v → PinsKept u (bodyOf i v).2 :=
    fun i v hv => hv.trans (bodyEffect_pinsKept (body_effect i v))
  refine hostAct_keeps (P := SoundWithPins s) (fun b u hu => ?write) (fun m i u _ _ hphase hu => ?run) (fun u hu => ?read)
    (fun u hu => ?reset) (fun c u hu hheld htx => ?release) (fun w u => ?hardware) hc he ⟨h, id⟩
  case write =>
    obtain ⟨hcore, hheld⟩ := (stationSound_iff_core u).1 hu.1
    exact hu.of_parts (dataWrite_keeps hport hbody b u hcore) ((dataWrite_written b u).heldSound hheld)
      (dataWrite_keeps (hportPins u) (hbodyPins u) b u (.refl u))
  case run =>
    obtain ⟨hcore, hheld⟩ := (stationSound_iff_core u).1 hu.1
    exact hu.of_parts (execute_keeps hport m (bodyOf i) (hbody i) u hcore)
      (execute_heldSound m i (hheld.held_eq_none (by simp [hphase])))
      (execute_keeps (hportPins u) m (bodyOf i) (hbodyPins u i) u (.refl u))
  case read =>
    obtain ⟨hcore, hheld⟩ := (stationSound_iff_core u).1 hu.1
    have hread := dataRead_heldSound hheld
    obtain ⟨x, heq⟩ := dataRead_eq u
    rw [heq] at hread ⊢
    exact hu.of_parts (hport x u hcore) hread (hportPins u x u (.refl u))
  case reset =>
    obtain ⟨hcore, hheld⟩ := (stationSound_iff_core u).1 hu.1
    have hreset := portReset_heldSound hheld
    obtain ⟨x, heq⟩ := portReset_eq u
    rw [heq] at hreset ⊢
    exact hu.of_parts (hport x u hcore) hreset (hportPins u x u (.refl u))
  case release =>
    obtain ⟨hcore, hsound⟩ := (stationSound_iff_core u).1 hu.1
    obtain ⟨hs, -⟩ := hsound (by simp [hheld])
    have hfreed : StationCore (setCtl { u.ctl with held := none } u) :=
      ⟨hcore.line.congr rfl rfl rfl rfl fun _ => rfl, hcore.settings.congr rfl rfl rfl id⟩
    have hmade := makeHeld_core c hfreed hs htx
    refine hu.of_parts (hport _ _ hmade) (heldSound_of_none (makeHeld_held c _)) (hportPins u _ _ ?_)
    exact PinsKept.trans (.of_eq rfl rfl rfl rfl rfl) (makeHeld_pinsKept c (s := setCtl { u.ctl with held := none } u) hs)
  case hardware =>
    have hsound := resetWith_sound w u.pending
    exact ⟨hsound.station, fun _ => hsound.pins⟩

/-! ### The station's own events and the passing of time -/

theorem lineEvent_sound (c : Instr) {s t : State} (hc : lineEvent c = true) (he : exec c s = .next t) (h : StationSound s) :
    StationSound t := by
  obtain ⟨⟨hline, hsettings⟩, hheld⟩ := (stationSound_iff_core s).1 h
  have hserved := (lineEvent_leaves c s t hc he).served
  exact (stationSound_iff_core t).2 ⟨⟨lineEvent_core c hc he hline hsettings.slots_pos,
    hsettings.congr hserved.edited hserved.editedSet hserved.committed fun hne hs => hne (hserved.config.2 hs)⟩,
    hheld.congr hserved.held hserved.config hserved.port⟩

/-- A step that leaves line unit, controller and port. -/
theorem stationSound_congr {s t : State} (h : StationSound s) (hline : t.line = s.line) (hctl : t.ctl = s.ctl)
    (hport : t.port = s.port) : StationSound t := by
  obtain ⟨hcore, hheld⟩ := (stationSound_iff_core s).1 h
  exact (stationSound_iff_core t).2 ⟨hcore.of_eq hline hctl, hheld.congr (by rw [hctl]) (by rw [hctl]) hport⟩

theorem ownEvent_sound {c : Instr} {s t : State} (hc : hostAct c = false) (he : exec c s = .next t) (h : StationSound s) :
    StationSound t := by
  refine ownEvent_keeps (fun c u v hl hv hu => lineEvent_sound c hl hv hu) (fun i b u v hv hu => ?input)
    (fun m u v hv hu => ?filter) (fun u hu => stationSound_congr hu (by simp) (by simp) (by simp))
    (fun k u _ hu => stationSound_congr hu (by simp) (by simp) (by simp))
    (fun i u _ hu => stationSound_congr hu (by simp) (by simp) (by simp)) hc he h
  case input =>
    rw [← Host.Outcome.next.inj hv]
    split
    · exact hu
    · exact stationSound_congr hu (by simp) (by simp) (by simp)
  case filter =>
    rw [← Host.Outcome.next.inj hv]
    exact stationSound_congr hu (by simp) (by simp) (by simp)

theorem ct_pos (s : State) : 0 < s.ct := by
  unfold State.ct Config.ctUnits
  (repeat' split) <;> simp

/-- Pictures are held after a unit of time exactly while they were held before it (log 32). -/
theorem tickPictures_eq_nil (s : State) : tickPictures s = [] ↔ s.line.pictures = [] := by
  have hct := ct_pos s
  unfold tickPictures
  split
  · simp [*]
  · simp [*, Nat.ne_of_gt hct]

theorem LineCore.setPictures {s : State} {ps : List SlotPicture} (h : LineCore s) (hps : ps = [] ↔ s.line.pictures = []) :
    LineCore (setLine { s.line with pictures := ps } s) :=
  ⟨h.phase, h.fault, h.slot, h.slots, h.sending, (not_congr hps).trans h.pictures, h.collided, h.holds⟩

theorem tick_line (s : State) : (tick s).line = { (tickLine s.line) with pictures := tickPictures s } := by rw [tick_eq]

theorem tick_ctl (s : State) : (tick s).ctl = { s.ctl with ageTimer := s.ctl.ageTimer.map (· - 1) } := by rw [tick_eq]

theorem tick_sound {s : State} (h : StationSound s) : StationSound (tick s) := by
  obtain ⟨⟨hline, hsettings⟩, hheld⟩ := (stationSound_iff_core s).1 h
  have hticked := tick_line s
  have hctl := tick_ctl s
  have hpictures := hline.setPictures (tickPictures_eq_nil s)
  exact (stationSound_iff_core _).2 ⟨⟨hpictures.congr (by rw [hticked]; rfl) (by rw [hctl]; rfl) (by rw [hctl]; rfl)
    (by rw [hctl]; rfl) (fun _ => by rw [hctl]; rfl), hsettings.congr (by rw [hctl]) (by rw [hctl]) (by rw [hctl]) (by simp)⟩,
    hheld.congr (by simp) (by simp) (by simp)⟩

theorem exec_stationAndPins (c : Instr) {s t : State} (he : exec c s = .next t) (h : StationSound s) : SoundWithPins s t := by
  cases hc : hostAct c with
  | true => exact hostAct_sound hc he h
  | false => exact ⟨ownEvent_sound hc he h, ownEvent_pinsKept hc he⟩

/-- Settles O57: what the line unit, the settings and the held command are held to is kept by every access, event and unit of
time, and the drive mode is derived, and the pins set, wherever what they follow changes. -/
theorem stationAndPinsStaySound : Obligations.StationAndPinsStaySound := by
  intro s t h hstep
  refine step_keeps (P := SoundWithPins s) (fun c u v he hu => ?_) (fun x u hu => ⟨hu.1, hu.2⟩)
    (fun u hu => ⟨tick_sound hu.1, fun hs => tick_pinsKept u (hu.2 hs)⟩) hstep ⟨h, id⟩
  obtain ⟨hsound, hpins⟩ := exec_stationAndPins c he hu.1
  exact ⟨hsound, fun hs => hpins (hu.2 hs)⟩

end Sys2Proof.Machine
